-- ==== Sys2Proof/Word.lean ====
section
/-! DEFINITION. The words of the block: the 16-bit command word and the 10-bit code registers (R6, R9). Bit 0 is the least
significant bit and every integer field is unsigned (R9). -/

namespace Sys2Proof

/-- A command word, moved whole over the `cmd` port (R56, R71): `CMD_W` = 16 bits (R6). -/
abbrev Word := BitVec 16

/-- A raw waveform or mode code, and a command's value field: `CODE_W` = `VAL_W` = 10 bits (R6, R22, R28, R75). -/
abbrev Code := BitVec 10

end Sys2Proof
end

