-- ==== Sys2Proof/Syntax.lean ====
section
/-! DEFINITION. The commands of the block: one constructor for each of the 15 rows of the opcode table (R73, R74). Bits 12..0 of
a word whose class is not `PARAM` are ignored (R76), so such a command carries nothing; a `PARAM` command carries its whole
10-bit value field (R75). The operands `f`, `m`, `s0`, `s1` are not in the word: they stand on ports (R78). -/

namespace Sys2Proof

/-- One command (R73, R74). -/
inductive Instr where
  /-- `INIT`, class 0b000 (R161) -/
  | init
  /-- `TICK`, class 0b001 (R141) -/
  | tick
  /-- `NOTE_ON`, class 0b010 (R162) -/
  | noteOn
  /-- `NOTE_OFF`, class 0b011 (R163) -/
  | noteOff
  /-- `SET_WAVE0 v`, slot 0 (R164) -/
  | setWave0 (v : Code)
  /-- `SET_WAVE1 v`, slot 1 (R165) -/
  | setWave1 (v : Code)
  /-- `SET_FEEDBACK v`, slot 2 (R166) -/
  | setFeedback (v : Code)
  /-- `SET_MODE v`, slot 3 (R167) -/
  | setMode (v : Code)
  /-- `PARAM_RSV4 v`, slot 4 (R168) -/
  | paramRsv4 (v : Code)
  /-- `PARAM_RSV5 v`, slot 5 (R169) -/
  | paramRsv5 (v : Code)
  /-- `SET_RATIO v`, slot 6 (R170) -/
  | setRatio (v : Code)
  /-- `SET_LEVEL v`, slot 7 (R171) -/
  | setLevel (v : Code)
  /-- `RSV_OPC5`, class 0b101 (R172) -/
  | rsvOpc5
  /-- `RSV_OPC6`, class 0b110 (R173) -/
  | rsvOpc6
  /-- `RSV_OPC7`, class 0b111 (R174) -/
  | rsvOpc7
  deriving DecidableEq, Repr

/-- A command's mnemonic, as the opcode table and the assembler spell it (R83). -/
def Instr.mnemonic : Instr → String
  | .init => "INIT"
  | .tick => "TICK"
  | .noteOn => "NOTE_ON"
  | .noteOff => "NOTE_OFF"
  | .setWave0 _ => "SET_WAVE0"
  | .setWave1 _ => "SET_WAVE1"
  | .setFeedback _ => "SET_FEEDBACK"
  | .setMode _ => "SET_MODE"
  | .paramRsv4 _ => "PARAM_RSV4"
  | .paramRsv5 _ => "PARAM_RSV5"
  | .setRatio _ => "SET_RATIO"
  | .setLevel _ => "SET_LEVEL"
  | .rsvOpc5 => "RSV_OPC5"
  | .rsvOpc6 => "RSV_OPC6"
  | .rsvOpc7 => "RSV_OPC7"

end Sys2Proof
end

