-- ==== Sys2Proof/Decode.lean ====
section
/-! DEFINITION. Decoding and encoding of the command word (R72 to R76, R82), and the opcode table as rows of mask and pattern. -/

namespace Sys2Proof

/-- `OPC` = `cmd[15:13]` (R72). -/
def opcField (w : Word) : BitVec 3 := w.extractLsb' 13 3

/-- `SLOT` = `cmd[12:10]` (R72). -/
def slotField (w : Word) : BitVec 3 := w.extractLsb' 10 3

/-- `VAL` = `cmd[9:0]` (R72). -/
def valField (w : Word) : Code := w.extractLsb' 0 10

/-- `SLOT` selects one of the eight parameter commands (R74). -/
def decodeSlot (slot : Fin 8) (v : Code) : Instr :=
  match slot with
  | 0 => .setWave0 v
  | 1 => .setWave1 v
  | 2 => .setFeedback v
  | 3 => .setMode v
  | 4 => .paramRsv4 v
  | 5 => .paramRsv5 v
  | 6 => .setRatio v
  | 7 => .setLevel v

/-- `OPC` selects the command class (R73). -/
def decodeClass (opc slot : Fin 8) (v : Code) : Instr :=
  match opc with
  | 0 => .init
  | 1 => .tick
  | 2 => .noteOn
  | 3 => .noteOff
  | 4 => decodeSlot slot v
  | 5 => .rsvOpc5
  | 6 => .rsvOpc6
  | 7 => .rsvOpc7

/-- The command a word is. Total: no word is undecodable (R82). -/
def decode (w : Word) : Instr := decodeClass (opcField w).toFin (slotField w).toFin (valField w)

/-- Why a string of bits is no command: the only reason is that it is longer than the one 16-bit word the port moves (R56, R81;
DEDUCED, log entry 19). -/
inductive DecodeError where
  | longerThanOneWord
  deriving DecidableEq, Repr

/-- The command in the low `nbits` bits of `w`, the bits above them zero. -/
def decodeSized (nbits w : Nat) : Except DecodeError Instr :=
  if nbits ≤ 16 then .ok (decode (BitVec.ofNat 16 (w % 2 ^ nbits))) else .error .longerThanOneWord

/-- The host's reading of an opcode-table word: `decodeSized` without the error's name. -/
def decodeTableWord (nbits w : Nat) : Option Instr := (decodeSized nbits w).toOption

/-- A word of a class that ignores bits 12..0: an assembler writes them as zero (R76). -/
def classWord (opc : BitVec 3) : Word := opc.setWidth 16 <<< 13

/-- A `PARAM` word, `0x8000 | slot << 10 | v`: `OPC` = 0b100, then `SLOT`, then `VAL` (R72, R74, R83). -/
def paramWord (slot : BitVec 3) (v : Code) : Word := 0x8000#16 ||| (slot.setWidth 16 <<< 10) ||| v.setWidth 16

/-- The word an assembler writes for a command (R83). -/
def encode : Instr → Word
  | .init => classWord 0
  | .tick => classWord 1
  | .noteOn => classWord 2
  | .noteOff => classWord 3
  | .setWave0 v => paramWord 0 v
  | .setWave1 v => paramWord 1 v
  | .setFeedback v => paramWord 2 v
  | .setMode v => paramWord 3 v
  | .paramRsv4 v => paramWord 4 v
  | .paramRsv5 v => paramWord 5 v
  | .setRatio v => paramWord 6 v
  | .setLevel v => paramWord 7 v
  | .rsvOpc5 => classWord 5
  | .rsvOpc6 => classWord 6
  | .rsvOpc7 => classWord 7

/-- One row of the opcode table: a word is the row's when its masked bits are the pattern. -/
structure OpcodeRow where
  mnemonic : String
  mask : Word
  pattern : Word
  deriving DecidableEq, Repr

/-- Whether a word is the row's. -/
def OpcodeRow.selects (r : OpcodeRow) (w : Word) : Bool := w &&& r.mask == r.pattern

/-- The opcode table, row for row (opcode_table.json; R73, R74). -/
def opcodeTable : List OpcodeRow :=
  [⟨"INIT", 0xE000, 0x0000⟩, ⟨"TICK", 0xE000, 0x2000⟩, ⟨"NOTE_ON", 0xE000, 0x4000⟩, ⟨"NOTE_OFF", 0xE000, 0x6000⟩,
   ⟨"SET_WAVE0", 0xFC00, 0x8000⟩, ⟨"SET_WAVE1", 0xFC00, 0x8400⟩, ⟨"SET_FEEDBACK", 0xFC00, 0x8800⟩,
   ⟨"SET_MODE", 0xFC00, 0x8C00⟩, ⟨"PARAM_RSV4", 0xFC00, 0x9000⟩, ⟨"PARAM_RSV5", 0xFC00, 0x9400⟩,
   ⟨"SET_RATIO", 0xFC00, 0x9800⟩, ⟨"SET_LEVEL", 0xFC00, 0x9C00⟩,
   ⟨"RSV_OPC5", 0xE000, 0xA000⟩, ⟨"RSV_OPC6", 0xE000, 0xC000⟩, ⟨"RSV_OPC7", 0xE000, 0xE000⟩]

end Sys2Proof
end

