-- ==== Sys2Proof/Machine/State.lean ====
section
/-! DEFINITION. The state of the block and of its ports, as plain data (R21, R71).

Every real register is an exact number (R8), and no computer writes a real number out. So a register holds a NUMBER TERM
(`NumTerm`): the exact constant, parameter or port value it was given, or the exact operation that made it from others. What real
number a term is, for any choice of the OPEN parameters and of the port values, is `NumTerm.eval` (Machine/Domain.lean) in the
arithmetic of Machine/Waveforms.lean. The types are generic in the number type `α`, so that one definition of each command is
read over terms (the machine) and over ℝ (the spec's normative domain). -/

namespace Sys2Proof.Machine

/-- A number term: a name of one real number (DESIGN CHOICE, log entry 1). -/
inductive NumTerm where
  /-- an exact rational constant -/
  | rat (q : ℚ)
  /-- the exact circle constant (R11) -/
  | pi
  /-- the OPEN parameter `SR` (R6) -/
  | sampleRate
  /-- the OPEN ratio ROM's entry `idx` (R52) -/
  | ratioEntry (idx : Fin 64)
  /-- a value the host puts on a `NUM` port (R71): any real, nothing constrains it -/
  | port (n : Nat)
  /-- a free draw in [0, 1) (R10 `draw`, R33) -/
  | draw (n : Nat)
  | add (a b : NumTerm)
  | sub (a b : NumTerm)
  | mul (a b : NumTerm)
  | div (a b : NumTerm)
  /-- `frac(x) = x - floor(x)` (R11) -/
  | frac (a : NumTerm)
  /-- the sine generator (R103) -/
  | sin (θ : NumTerm)
  /-- the triangle generator (R107) -/
  | tri (θ : NumTerm)
  /-- the square generator (R105) -/
  | sqr (θ : NumTerm)
  /-- the sawtooth generator (R106) -/
  | saw (θ : NumTerm)
  deriving DecidableEq, Repr

/-- One operator's record (R21): waveform code, ratio, level, phase, feedback coefficient, last output (R22 to R27). -/
structure Operator (α : Type) where
  /-- raw waveform code, 10 bits (R22) -/
  wave : Code
  /-- frequency multiplier (R23) -/
  ratio : α
  /-- output amplitude (R24) -/
  level : α
  /-- phase as a fraction of a cycle (R25) -/
  phase : α
  /-- self-modulation coefficient (R26) -/
  fb : α
  /-- most recent output (R27) -/
  last : α
  deriving DecidableEq, Repr

/-- The block's state record (R21). Operator 0 is the carrier, operator 1 the modulator, for the block's lifetime (R7). -/
structure Block (α : Type) where
  /-- set by the first `INIT` and never cleared (R29) -/
  initDone : Bool
  /-- operator 0, the carrier -/
  op0 : Operator α
  /-- operator 1, the modulator -/
  op1 : Operator α
  /-- raw modulation mode code, 10 bits (R28) -/
  mode : Code
  deriving DecidableEq, Repr

/-- What stands on a `NUM` input port: a number, or, where an implementation's `NUM` is a floating format, an infinity or a
NaN (R206; DEDUCED, log entry 8). Over ℝ every port value is a number. -/
inductive Operand (α : Type) where
  | finite (x : α)
  | nonFinite
  deriving DecidableEq, Repr

/-- The `NUM` input ports (R71): `f` and `m` are operands of `TICK`, `s0` and `s1` of `INIT` (R78). -/
structure Ports (α : Type) where
  /-- base frequency in Hz -/
  f : Operand α
  /-- modulation input, by contract in [-1, 1] -/
  m : Operand α
  /-- phase seed of operator 0, by contract a draw in [0, 1) -/
  s0 : Operand α
  /-- phase seed of operator 1, by contract a draw in [0, 1) -/
  s1 : Operand α
  deriving DecidableEq, Repr

/-- One command step's presentation on the input ports: the command word with its operand ports (R71). -/
structure Issue (α : Type) where
  cmd : Word
  ports : Ports α
  deriving DecidableEq, Repr

/-- What stops the block with a fault: NOTHING. No command, operand value or state makes it trap, halt, hang or report an error
(R201, R12), so the type has no constructor. Safe: a claim cannot hide in a fault that never happens. -/
inductive Fault where
  deriving DecidableEq, Repr

/-- Why the model gives a command no meaning: the closed list of R206, and the model's own placeholder. -/
inductive Refusal where
  /-- `PRE_INIT`: raised by every command but `INIT` while `init_done` is false (R224). Safe: the spec gives no effect there. -/
  | preInit
  /-- `NON_FINITE`: raised by `TICK` and `INIT` when an operand port they read holds no finite number (R206). Safe. -/
  | nonFinite
  /-- `RESERVED`: raised by a reserved opcode under `RESERVED_POLICY = refuse` (R172). Safe. Not this block's policy. -/
  | reserved
  /-- `BAD_PARAM`: raised at elaboration when `SR` is not a positive finite number (R206). Safe. No step raises it. -/
  | badParam
  /-- raised by an arm of `exec` whose instruction has no meaning yet: there is none. Safe. -/
  | notModelled (mnemonic : String)
  deriving DecidableEq, Repr

/-- The machine: the block's registers (R21), the ports (R71), and the commands the host has yet to present, in order (R35, R60). -/
structure State where
  /-- the spec's state record (R21) -/
  block : Block NumTerm
  /-- the input ports, as presented for the command of this step (R71) -/
  input : Issue NumTerm
  /-- the output ports of the last step: `sample_valid` is whether there is a response, `sample` its value (R71; DESIGN CHOICE, log entry 6) -/
  response : Option NumTerm
  /-- the host's: the presentations still to come, the next one first (R35, R83; DESIGN CHOICE, log entry 4) -/
  pending : List (Issue NumTerm)
  deriving DecidableEq, Repr

/-- Operator record after `INIT` with its phase (R33, R161). -/
def Operator.reset {α : Type} (zero one phase : α) : Operator α :=
  { wave := 0, ratio := one, level := one, phase := phase, fb := zero, last := zero }

/-- Ports on which the host puts zeros. -/
def Ports.zero : Ports NumTerm :=
  { f := .finite (.rat 0), m := .finite (.rat 0), s0 := .finite (.rat 0), s1 := .finite (.rat 0) }

/-- The machine right after reset: `INIT` is the block's one reset and R33 its table of reset values (R222; DEDUCED, log entry 3). The phases
are `frac(s0)` and `frac(s1)` of two free draws in [0, 1). No command is presented and none has responded (DESIGN CHOICE, log entry 5). -/
def State.reset : State where
  block :=
    { initDone := true
      op0 := Operator.reset (.rat 0) (.rat 1) (.frac (.draw 0))
      op1 := Operator.reset (.rat 0) (.rat 1) (.frac (.draw 1))
      mode := 0 }
  input := { cmd := 0, ports := Ports.zero }
  response := none
  pending := []

/-- A machine at power-on: `init_done` is false and every other register is unspecified, so it is ANY register file (R34, R221).
A host's commands stand pending. -/
def State.powerOn (unspecified : Block NumTerm) (pending : List (Issue NumTerm)) : State where
  block := { unspecified with initDone := false }
  input := { cmd := 0, ports := Ports.zero }
  response := none
  pending := pending

end Sys2Proof.Machine
end

