-- ==== Sys2Proof/Machine/Flags.lean ====
section
/-! DEFINITION. The block has no flags and no condition codes (R35). Its two status bits: `init_done`, which gates every command
but `INIT` (R29, R224), and the output port `sample_valid` (R71). -/

namespace Sys2Proof.Machine

/-- What a command answers: a register file and, for `TICK`, a response sample; or a refusal (R12). -/
abbrev CmdResult (α : Type) := Host.Outcome (Block α × Option α) Fault Refusal

/-- The common prefix `if not init_done: refuse(PRE_INIT)` (R224, 42_control.md section 2). -/
def afterInit {α : Type} (b : Block α) (r : CmdResult α) : CmdResult α :=
  if b.initDone then r else .refused .preInit

/-- The output port `sample_valid`: 1 for the step of a `TICK`, 0 for every other command (R71). -/
def State.sampleValid (s : State) : Bool := s.response.isSome

end Sys2Proof.Machine
end

