-- ==== Sys2Proof/Config.lean ====
section
/-! DEFINITION. What one block fixes for its lifetime (R6, R30): the settled constants, the reserved-opcode policy, and the
parameters the spec leaves OPEN. An OPEN parameter has no value here: it is a field of `Params`, an ARGUMENT of the value a
register denotes (Machine/Domain.lean, Machine/Waveforms.lean), and of it only what the spec states may be used. -/

namespace Sys2Proof.Config

/-- `K_MOD` = 0.5, the maximum-modulation-ratio constant (R6, R131). This literal and those below are the source's, unaudited
(UNVERIFIED, log entry 12). -/
def kMod : ℚ := 1 / 2

/-- `FB_DIV` = 100, divisor from the feedback parameter to the coefficient (R6, R166). -/
def fbDiv : Nat := 100

/-- The largest feedback parameter that is not clamped (R77, R166). -/
def fbMax : Nat := 100

/-- `LEVEL_DIV` = 1023, divisor from the level parameter to the level (R6, R171). -/
def levelDiv : Nat := 1023

/-- `RATIO_IDX_MAX` = 63, the largest index of the ratio ROM (R6, R52). -/
def ratioIdxMax : Nat := 63

/-- How far the ratio parameter is shifted right to make an index (R77, R170). -/
def ratioShift : Nat := 3

/-- `RESERVED_POLICY` (R79): what a reserved opcode does. -/
inductive ReservedPolicy where
  /-- a no-op without a response, the spec's default -/
  | noop
  /-- the model gives the command no meaning -/
  | refuse
  deriving DecidableEq, Repr

/-- The policy of this block: the spec's default (R79, R172; UNVERIFIED, log entry 9). -/
def reservedPolicy : ReservedPolicy := .noop

/-- The OPEN constants of a block other than its sample rate (R6, R30): the sine the `sine_cos_lut` computes with its error
bound, of which only (S1) to (S3) of R103 may be assumed ((S4), totality, is the function type); and the ratio ROM, of which
only entries 0 and 1 are known (R52). -/
structure Constants where
  /-- `SIN_IMPL` (R103) -/
  sinImpl : ℝ → ℝ
  /-- `EPS_SIN` (R103), one number for all angles (DESIGN CHOICE, log entry 16) -/
  epsSin : ℝ
  /-- (S1) of R103 -/
  sin_bounded : ∀ θ, |sinImpl θ| ≤ 1
  /-- (S2) of R103 -/
  sin_periodic : ∀ θ, |sinImpl (θ + 2 * Real.pi) - sinImpl θ| ≤ 2 * epsSin
  /-- (S3) of R103 -/
  sin_close : ∀ θ, |sinImpl θ - Real.sin θ| ≤ epsSin
  /-- `RATIO_TABLE` (R52) -/
  ratioTable : Fin 64 → ℝ
  /-- entry 0 is 0.5 (R52) -/
  ratio_zero : ratioTable 0 = 1 / 2
  /-- entry 1 is 0.71 (R52) -/
  ratio_one : ratioTable 1 = 71 / 100

/-- The parameters of an elaborated block: its constants and its sample rate `SR`, a positive real that never changes
(R6, R225). -/
structure Params extends Constants where
  /-- `SR` (R6) -/
  sr : ℝ
  /-- the source requires a positive real (R6) -/
  sr_pos : 0 < sr

/-- The spec's reference sine: `SIN_IMPL = sin`, `EPS_SIN = 0` (R103), over any ratio ROM that R52 allows. -/
noncomputable def referenceConstants (table : Fin 64 → ℝ) (h0 : table 0 = 1 / 2) (h1 : table 1 = 71 / 100) : Constants where
  sinImpl := Real.sin
  epsSin := 0
  sin_bounded := Real.abs_sin_le_one
  sin_periodic := by intro θ; simp
  sin_close := by intro θ; simp
  ratioTable := table
  ratio_zero := h0
  ratio_one := h1

/-- `COS(θ)`, should an implementation expose it: `SIN(θ + π/2)` (R104). Nothing in the block reads it. -/
noncomputable def Constants.cosImpl (c : Constants) (θ : ℝ) : ℝ := c.sinImpl (θ + Real.pi / 2)

end Sys2Proof.Config
end

