-- ==== Sys2Proof/Machine/Domain.lean ====
section
/-! DEFINITION. `NUM` as a parameter (R6, R8): the arithmetic a command is computed in, the arithmetic of number terms (the
machine's), and the value a term has in any arithmetic. -/

namespace Sys2Proof.Machine

/-- A number domain: the constants, operations and generators the rules use. `NUM` of R6; the spec's normative one is
`realDomain` (Machine/Waveforms.lean). -/
structure NumDomain (α : Type) where
  rat : ℚ → α
  pi : α
  sampleRate : α
  ratioEntry : Fin 64 → α
  add : α → α → α
  sub : α → α → α
  mul : α → α → α
  div : α → α → α
  frac : α → α
  sin : α → α
  tri : α → α
  sqr : α → α
  saw : α → α

/-- The machine's own arithmetic: every operation is written down exactly, nothing is rounded. -/
def termDomain : NumDomain NumTerm where
  rat := .rat
  pi := .pi
  sampleRate := .sampleRate
  ratioEntry := .ratioEntry
  add := .add
  sub := .sub
  mul := .mul
  div := .div
  frac := .frac
  sin := .sin
  tri := .tri
  sqr := .sqr
  saw := .saw

/-- An interpretation: a number domain, what the host put on each port, and the free draws. -/
structure Interp (α : Type) where
  domain : NumDomain α
  port : Nat → α
  draw : Nat → α

/-- The value of a term under an interpretation. -/
def NumTerm.eval {α : Type} (I : Interp α) : NumTerm → α
  | .rat q => I.domain.rat q
  | .pi => I.domain.pi
  | .sampleRate => I.domain.sampleRate
  | .ratioEntry idx => I.domain.ratioEntry idx
  | .port n => I.port n
  | .draw n => I.draw n
  | .add a b => I.domain.add (a.eval I) (b.eval I)
  | .sub a b => I.domain.sub (a.eval I) (b.eval I)
  | .mul a b => I.domain.mul (a.eval I) (b.eval I)
  | .div a b => I.domain.div (a.eval I) (b.eval I)
  | .frac a => I.domain.frac (a.eval I)
  | .sin θ => I.domain.sin (θ.eval I)
  | .tri θ => I.domain.tri (θ.eval I)
  | .sqr θ => I.domain.sqr (θ.eval I)
  | .saw θ => I.domain.saw (θ.eval I)

/-- An operator's record with every number replaced by its value. -/
def Operator.map {α β : Type} (g : α → β) (o : Operator α) : Operator β :=
  { wave := o.wave, ratio := g o.ratio, level := g o.level, phase := g o.phase, fb := g o.fb, last := g o.last }

/-- A register file with every number replaced by its value. -/
def Block.map {α β : Type} (g : α → β) (b : Block α) : Block β :=
  { initDone := b.initDone, op0 := b.op0.map g, op1 := b.op1.map g, mode := b.mode }

/-- A port's content with its number replaced by its value. -/
def Operand.map {α β : Type} (g : α → β) : Operand α → Operand β
  | .finite x => .finite (g x)
  | .nonFinite => .nonFinite

/-- The operand ports with every number replaced by its value. -/
def Ports.map {α β : Type} (g : α → β) (p : Ports α) : Ports β :=
  { f := p.f.map g, m := p.m.map g, s0 := p.s0.map g, s1 := p.s1.map g }

/-- A presentation with every number replaced by its value. -/
def Issue.map {α β : Type} (g : α → β) (i : Issue α) : Issue β := { cmd := i.cmd, ports := i.ports.map g }

end Sys2Proof.Machine
end

