-- ==== Sys2Proof/Machine/Operands.lean ====
section
/-! DEFINITION. What a command makes of its value field (R75, R77), of a raw waveform code (R108) and of a raw mode code (R28),
and the ratio ROM (R52). -/

namespace Sys2Proof.Machine

/-- The waveform a code selects (R108). -/
inductive Wave where
  | sine
  | triangle
  | square
  | sawtooth
  /-- every code outside 0..3 -/
  | silence
  deriving DecidableEq, Repr

/-- The raw code's waveform: 0 to 3 select one, every other code is silence (R22, R108). -/
def waveOf (c : Code) : Wave :=
  match c.toNat with
  | 0 => .sine
  | 1 => .triangle
  | 2 => .square
  | 3 => .sawtooth
  | _ => .silence

/-- The modulation mode a code selects (R28). -/
inductive Modulation where
  | fm
  | pm
  /-- every code outside 0 and 1 -/
  | unknown
  deriving DecidableEq, Repr

/-- The raw code's mode: 0 is FM, 1 is PM, every other code is an unknown mode (R28). -/
def modulationOf (c : Code) : Modulation :=
  match c.toNat with
  | 0 => .fm
  | 1 => .pm
  | _ => .unknown

/-- The feedback coefficient of a parameter: `min(v, 100) / 100` (R77, R166). -/
def feedbackOf {α : Type} (A : NumDomain α) (v : Code) : α :=
  A.rat ((min v.toNat Config.fbMax : ℕ) / (Config.fbDiv : ℕ))

/-- The ratio ROM's index of a parameter: `min(v >> 3, 63)`, always in range (R53, R170). -/
def ratioIndex (v : Code) : Fin 64 :=
  ⟨min (v.toNat >>> Config.ratioShift) Config.ratioIdxMax, Nat.lt_succ_of_le (Nat.min_le_right _ _)⟩

/-- `RatioROM(idx)` (R52). -/
def ratioRom {α : Type} (A : NumDomain α) (idx : Fin 64) : α := A.ratioEntry idx

/-- The level of a parameter: `v / 1023` (R77, R171). -/
def levelOf {α : Type} (A : NumDomain α) (v : Code) : α := A.rat ((v.toNat : ℕ) / (Config.levelDiv : ℕ))

end Sys2Proof.Machine
end

