-- ==== Sys2Proof/Machine/Ops.lean ====
section
/-! DEFINITION. The named operations over the registers that the commands share: one write per field, the waveform multiplexer,
the modulator and carrier formulas, the phase accumulator, and the handing of a command's answer to the machine's state.

The block has no data memory (R51) and no trap entry or return (R204, R205), so none is here. -/

namespace Sys2Proof.Machine

/-- `op[i].wave <- c` (R10). -/
def Operator.setWave {α : Type} (o : Operator α) (c : Code) : Operator α := { o with wave := c }
/-- `op[i].ratio <- x` (R10). -/
def Operator.setRatio {α : Type} (o : Operator α) (x : α) : Operator α := { o with ratio := x }
/-- `op[i].level <- x` (R10). -/
def Operator.setLevel {α : Type} (o : Operator α) (x : α) : Operator α := { o with level := x }
/-- `op[i].phase <- x` (R10). -/
def Operator.setPhase {α : Type} (o : Operator α) (x : α) : Operator α := { o with phase := x }
/-- `op[i].fb <- x` (R10). -/
def Operator.setFb {α : Type} (o : Operator α) (x : α) : Operator α := { o with fb := x }
/-- `op[i].last <- x` (R10). -/
def Operator.setLast {α : Type} (o : Operator α) (x : α) : Operator α := { o with last := x }

/-- Write operator 0's record. -/
def Block.setOp0 {α : Type} (b : Block α) (o : Operator α) : Block α := { b with op0 := o }
/-- Write operator 1's record. -/
def Block.setOp1 {α : Type} (b : Block α) (o : Operator α) : Block α := { b with op1 := o }
/-- `mode <- c` (R10). -/
def Block.setMode {α : Type} (b : Block α) (c : Code) : Block α := { b with mode := c }

/-- Write the register file. -/
def State.setBlock (s : State) (b : Block NumTerm) : State := { s with block := b }
/-- Drive the output ports (R71). -/
def State.setResponse (s : State) (y : Option NumTerm) : State := { s with response := y }
/-- Present a command on the input ports (R71). -/
def State.setInput (s : State) (i : Issue NumTerm) : State := { s with input := i }
/-- The commands the host has yet to present. -/
def State.setPending (s : State) (l : List (Issue NumTerm)) : State := { s with pending := l }

/-- `2π · x` (R11). -/
def twoPiTimes {α : Type} (A : NumDomain α) (x : α) : α := A.mul (A.mul (A.rat 2) A.pi) x

/-- `GEN(θ, c)`, the waveform select multiplexer (R108). -/
def gen {α : Type} (A : NumDomain α) (θ : α) (c : Code) : α :=
  match waveOf c with
  | .sine => A.sin θ
  | .triangle => A.tri θ
  | .square => A.sqr θ
  | .sawtooth => A.saw θ
  | .silence => A.rat 0

/-- The modulation depth `(1 - K_MOD) + K_MOD · m`, `m` not clamped (R131; UNVERIFIED, log entry 13). -/
def depth {α : Type} (A : NumDomain α) (m : α) : α :=
  A.add (A.sub (A.rat 1) (A.rat Config.kMod)) (A.mul (A.rat Config.kMod) m)

/-- The modulator's angle in FM mode, `2π · (φ1 + fb · last)` (R132). -/
def fmAngle {α : Type} (A : NumDomain α) (o : Operator α) : α :=
  twoPiTimes A (A.add o.phase (A.mul o.fb o.last))

/-- The modulator's angle in PM mode, `2π · φ1 + fb · last` (R133). -/
def pmAngle {α : Type} (A : NumDomain α) (o : Operator α) : α :=
  A.add (twoPiTimes A o.phase) (A.mul o.fb o.last)

/-- The modulator's output `level · depth · GEN(a1, wave)` (R134), grouped from the left (DESIGN CHOICE, log entry 17). -/
def modulatorOut {α : Type} (A : NumDomain α) (o : Operator α) (d a1 : α) : α :=
  A.mul (A.mul o.level d) (gen A a1 o.wave)

/-- The carrier's angle `2π · φ0 + y1`, the same in both modes (R135). -/
def carrierAngle {α : Type} (A : NumDomain α) (o : Operator α) (y1 : α) : α :=
  A.add (twoPiTimes A o.phase) y1

/-- The carrier's output `level · GEN(a0, wave)`, not depth-scaled (R136). -/
def carrierOut {α : Type} (A : NumDomain α) (o : Operator α) (a0 : α) : α :=
  A.mul o.level (gen A a0 o.wave)

/-- The sounding part of a tick from the modulator's angle: the modulator writes its `last`, then the carrier reads that value and
writes its own, which is the sample (R134 to R136, in the order of R138). -/
def sound {α : Type} (A : NumDomain α) (b : Block α) (d a1 : α) : Block α × α :=
  let y1 := modulatorOut A b.op1 d a1
  let b := b.setOp1 (b.op1.setLast y1)
  let y0 := carrierOut A b.op0 (carrierAngle A b.op0 y1)
  (b.setOp0 (b.op0.setLast y0), y0)

/-- The mode's signal chain: FM, PM, or silence that writes no `last` (R132, R133, R137). -/
def modulate {α : Type} (A : NumDomain α) (b : Block α) (m : α) : Block α × α :=
  match modulationOf b.mode with
  | .fm => sound A b (depth A m) (fmAngle A b.op1)
  | .pm => sound A b (depth A m) (pmAngle A b.op1)
  | .unknown => (b, A.rat 0)

/-- The phase accumulator: `op[i].phase <- frac(phase + f · ratio / SR)` (R139). -/
def advancePhase {α : Type} (A : NumDomain α) (f : α) (o : Operator α) : Operator α :=
  o.setPhase (A.frac (A.add o.phase (A.div (A.mul f o.ratio) A.sampleRate)))

/-- Both phases advance once, in every mode (R140). -/
def advancePhases {α : Type} (A : NumDomain α) (f : α) (b : Block α) : Block α :=
  (b.setOp0 (advancePhase A f b.op0)).setOp1 (advancePhase A f b.op1)

/-- The registers that `INIT` leaves (R33, R161). -/
def initBlock {α : Type} (A : NumDomain α) (s0 s1 : α) : Block α :=
  { initDone := true
    op0 := Operator.reset (A.rat 0) (A.rat 1) (A.frac s0)
    op1 := Operator.reset (A.rat 0) (A.rat 1) (A.frac s1)
    mode := 0 }

/-- A command that changes the registers and responds nothing, once the block is initialised. -/
def writing {α : Type} (b b' : Block α) : CmdResult α := afterInit b (.next (b', none))

/-- A reserved opcode under a policy (R79, R172). -/
def reservedUnder {α : Type} (policy : Config.ReservedPolicy) (b : Block α) : CmdResult α :=
  match policy with
  | .noop => writing b b
  | .refuse => .refused .reserved

/-- Hand a command's answer to the machine: its registers, and its response on the output ports. The input ports and the host's
pending commands stay. -/
def commit (s : State) (r : CmdResult NumTerm) : Host.Outcome State Fault Refusal :=
  match r with
  | .next (b, y) => .next ((s.setBlock b).setResponse y)
  | .fault e => .fault e
  | .refused e => .refused e

end Sys2Proof.Machine
end

