-- ==== Sys2Proof/Machine/Lifecycle.lean ====
section
/-! DEFINITION. `INIT`, `NOTE_ON`, `NOTE_OFF` (42_control.md section 1). -/

namespace Sys2Proof.Machine

/-- `INIT` in a number domain: accepted in every state, it writes every field (R161, R33).
The refusal of a seed port without a number: R206; DEDUCED, log entry 8. -/
def initCommand {α : Type} (A : NumDomain α) (p : Ports α) : CmdResult α :=
  match p.s0, p.s1 with
  | .finite s0, .finite s1 => .next (initBlock A s0 s1, none)
  | _, _ => .refused .nonFinite

/-- `INIT` (R161). -/
def execInit (s : State) : Host.Outcome State Fault Refusal :=
  commit s (initCommand termDomain s.input.ports)

/-- `NOTE_ON` changes no register (R162). -/
def noteOnCommand {α : Type} (b : Block α) : CmdResult α := writing b b

/-- `NOTE_ON` (R162). -/
def execNoteOn (s : State) : Host.Outcome State Fault Refusal := commit s (noteOnCommand s.block)

/-- `NOTE_OFF` zeroes both last outputs (R163). -/
def noteOffCommand {α : Type} (A : NumDomain α) (b : Block α) : CmdResult α :=
  writing b ((b.setOp0 (b.op0.setLast (A.rat 0))).setOp1 (b.op1.setLast (A.rat 0)))

/-- `NOTE_OFF` (R163). -/
def execNoteOff (s : State) : Host.Outcome State Fault Refusal := commit s (noteOffCommand termDomain s.block)

end Sys2Proof.Machine
end

