-- ==== Sys2Proof/Machine/Param.lean ====
section
/-! DEFINITION. The eight parameter commands (42_control.md section 2). Each writes at most one field (R56). -/

namespace Sys2Proof.Machine

/-- `SET_WAVE0`: the carrier's waveform code, raw (R164). -/
def setWave0Command {α : Type} (b : Block α) (v : Code) : CmdResult α := writing b (b.setOp0 (b.op0.setWave v))

/-- `SET_WAVE0` (R164). -/
def execSetWave0 (v : Code) (s : State) : Host.Outcome State Fault Refusal := commit s (setWave0Command s.block v)

/-- `SET_WAVE1`: the modulator's waveform code, raw (R165). -/
def setWave1Command {α : Type} (b : Block α) (v : Code) : CmdResult α := writing b (b.setOp1 (b.op1.setWave v))

/-- `SET_WAVE1` (R165). -/
def execSetWave1 (v : Code) (s : State) : Host.Outcome State Fault Refusal := commit s (setWave1Command s.block v)

/-- `SET_FEEDBACK`: the modulator's feedback coefficient, clamped (R166). -/
def setFeedbackCommand {α : Type} (A : NumDomain α) (b : Block α) (v : Code) : CmdResult α :=
  writing b (b.setOp1 (b.op1.setFb (feedbackOf A v)))

/-- `SET_FEEDBACK` (R166). -/
def execSetFeedback (v : Code) (s : State) : Host.Outcome State Fault Refusal :=
  commit s (setFeedbackCommand termDomain s.block v)

/-- `SET_MODE`: the mode code, raw (R167). -/
def setModeCommand {α : Type} (b : Block α) (v : Code) : CmdResult α := writing b (b.setMode v)

/-- `SET_MODE` (R167). -/
def execSetMode (v : Code) (s : State) : Host.Outcome State Fault Refusal := commit s (setModeCommand s.block v)

/-- `PARAM_RSV4` changes nothing, for every value (R168). -/
def paramRsv4Command {α : Type} (b : Block α) (_v : Code) : CmdResult α := writing b b

/-- `PARAM_RSV4` (R168). -/
def execParamRsv4 (v : Code) (s : State) : Host.Outcome State Fault Refusal := commit s (paramRsv4Command s.block v)

/-- `PARAM_RSV5` changes nothing, for every value (R169). -/
def paramRsv5Command {α : Type} (b : Block α) (_v : Code) : CmdResult α := writing b b

/-- `PARAM_RSV5` (R169). -/
def execParamRsv5 (v : Code) (s : State) : Host.Outcome State Fault Refusal := commit s (paramRsv5Command s.block v)

/-- `SET_RATIO`: the modulator's ratio from the ratio ROM (R170). -/
def setRatioCommand {α : Type} (A : NumDomain α) (b : Block α) (v : Code) : CmdResult α :=
  writing b (b.setOp1 (b.op1.setRatio (ratioRom A (ratioIndex v))))

/-- `SET_RATIO` (R170). -/
def execSetRatio (v : Code) (s : State) : Host.Outcome State Fault Refusal :=
  commit s (setRatioCommand termDomain s.block v)

/-- `SET_LEVEL`: the modulator's level (R171). -/
def setLevelCommand {α : Type} (A : NumDomain α) (b : Block α) (v : Code) : CmdResult α :=
  writing b (b.setOp1 (b.op1.setLevel (levelOf A v)))

/-- `SET_LEVEL` (R171). -/
def execSetLevel (v : Code) (s : State) : Host.Outcome State Fault Refusal :=
  commit s (setLevelCommand termDomain s.block v)

end Sys2Proof.Machine
end

