-- ==== Sys2Proof/Machine/Reserved.lean ====
section
/-! DEFINITION. The three reserved opcodes (42_control.md section 3), under this block's `RESERVED_POLICY`. -/

namespace Sys2Proof.Machine

/-- `RSV_OPC5` (R172). -/
def rsvOpc5Command {α : Type} (b : Block α) : CmdResult α := reservedUnder Config.reservedPolicy b

/-- `RSV_OPC5` (R172). -/
def execRsvOpc5 (s : State) : Host.Outcome State Fault Refusal := commit s (rsvOpc5Command s.block)

/-- `RSV_OPC6` (R173). -/
def rsvOpc6Command {α : Type} (b : Block α) : CmdResult α := reservedUnder Config.reservedPolicy b

/-- `RSV_OPC6` (R173). -/
def execRsvOpc6 (s : State) : Host.Outcome State Fault Refusal := commit s (rsvOpc6Command s.block)

/-- `RSV_OPC7` (R174). -/
def rsvOpc7Command {α : Type} (b : Block α) : CmdResult α := reservedUnder Config.reservedPolicy b

/-- `RSV_OPC7` (R174). -/
def execRsvOpc7 (s : State) : Host.Outcome State Fault Refusal := commit s (rsvOpc7Command s.block)

end Sys2Proof.Machine
end

