-- ==== Sys2Proof/Machine/Tick.lean ====
section
/-! DEFINITION. `TICK` (41_modulation.md). -/

namespace Sys2Proof.Machine

/-- `TICK` in a number domain: the mode's output from the phases as they stand, then both phases advance (R138, R140, R141).
The refusal of a port without a number: R206; DEDUCED, log entry 8. -/
def tickCommand {α : Type} (A : NumDomain α) (b : Block α) (p : Ports α) : CmdResult α :=
  afterInit b <|
    match p.f, p.m with
    | .finite f, .finite m => .next (advancePhases A f (modulate A b m).1, some (modulate A b m).2)
    | _, _ => .refused .nonFinite

/-- `TICK` (R141). -/
def execTick (s : State) : Host.Outcome State Fault Refusal :=
  commit s (tickCommand termDomain s.block s.input.ports)

end Sys2Proof.Machine
end

