-- ==== Sys2Proof/Machine/Dispatch.lean ====
section
/-! DEFINITION. One arm per command, each a direct call of its meaning. -/

namespace Sys2Proof.Machine

def exec (i : Instr) (s : State) : Host.Outcome State Fault Refusal :=
  match i with
  | .init => Sys2Proof.Machine.execInit s
  | .tick => Sys2Proof.Machine.execTick s
  | .noteOn => Sys2Proof.Machine.execNoteOn s
  | .noteOff => Sys2Proof.Machine.execNoteOff s
  | .setWave0 v => Sys2Proof.Machine.execSetWave0 v s
  | .setWave1 v => Sys2Proof.Machine.execSetWave1 v s
  | .setFeedback v => Sys2Proof.Machine.execSetFeedback v s
  | .setMode v => Sys2Proof.Machine.execSetMode v s
  | .paramRsv4 v => Sys2Proof.Machine.execParamRsv4 v s
  | .paramRsv5 v => Sys2Proof.Machine.execParamRsv5 v s
  | .setRatio v => Sys2Proof.Machine.execSetRatio v s
  | .setLevel v => Sys2Proof.Machine.execSetLevel v s
  | .rsvOpc5 => Sys2Proof.Machine.execRsvOpc5 s
  | .rsvOpc6 => Sys2Proof.Machine.execRsvOpc6 s
  | .rsvOpc7 => Sys2Proof.Machine.execRsvOpc7 s

end Sys2Proof.Machine
end

