-- ==== Sys2Proof/Machine/Fetch.lean ====
section
/-! DEFINITION. How a command reaches the block. The block fetches nothing: the host presents one command word with its operand
ports at each step (R55, R71, R83). -/

namespace Sys2Proof.Machine

/-- Present the next command: it leaves the host's list and stands on the input ports. -/
def present (s : State) (next : Issue NumTerm) (rest : List (Issue NumTerm)) : State := (s.setInput next).setPending rest

/-- Between commands the block holds its state, and `sample_valid` is 0 (R213, R71; DEDUCED, log entry 7). -/
def hold (s : State) : State := s.setResponse none

/-- The presentation that follows: the host's next one, or what still stands on the ports. -/
def nextIssue (s : State) : Issue NumTerm := s.pending.headD s.input

/-- The machine with its next presentation's command word replaced by the low `nbits` bits of `w` (DESIGN CHOICE, log
entry 4). -/
def placeWord (s : State) (nbits w : Nat) : State :=
  s.setPending ({ nextIssue s with cmd := BitVec.ofNat 16 (w % 2 ^ nbits) } :: s.pending.tail)

/-- A program: the commands the host issues, in order, appended to those it has already issued (R35, R60). -/
def issue (s : State) (program : List (Issue NumTerm)) : State := s.setPending (s.pending ++ program)

end Sys2Proof.Machine
end

