-- ==== Sys2Proof/Machine/Step.lean ====
section
/-! DEFINITION. One step of the machine: the next command the host presents is decoded and executed, whole, before the one after
it starts (R57, R60). Where no command is presented the block holds its state (R213). -/

namespace Sys2Proof.Machine

/-- One command step (R57, R71). -/
def step (s : State) : Host.Outcome State Fault Refusal :=
  match s.pending with
  | [] => .next (hold s)
  | next :: rest => exec (decode next.cmd) (present s next rest)

/-- The machine with the word placed where the next step takes its command. -/
def State.withFetchWord (s : State) (nbits w : Nat) : State := placeWord s nbits w

end Sys2Proof.Machine
end

