-- ==== Sys2Proof/WellFormed.lean ====
section
/-! DEFINITION. The checks on what a host writes. A term of `Instr` can hold no ill-formed field: its value is 10 bits wide by its
type (R75), and every word decodes (R82). So the checks here are the assembler's refusals (R83, R84) and the host's contract on
values (R85). -/

namespace Sys2Proof

/-- The assembler refuses `v > 1023` (R83). -/
def wfValue (v : Nat) : Bool := v ≤ 1023

/-- The assembler refuses `slot > 7` (R83). -/
def wfSlot (slot : Nat) : Bool := slot ≤ 7

/-- `SET_RATIO_IDX <j>` takes 0 to 127 (R84). -/
def wfRatioIdx (j : Nat) : Bool := j ≤ 127

/-- `SET_WAVE <i>, <v>` names operator 0 or 1 (R84). -/
def wfOperator (i : Nat) : Bool := i ≤ 1

/-- The percent-style slots carry 0..100 by the host contract (R85). -/
def wfPercent (v : Code) : Bool := v.toNat ≤ 100

/-- A host that honours the source's value ranges (R85): percent-style slots 0 to 5 within 0..100, everything else free. The
block does something defined when it is not honoured. -/
def Instr.honoursContract : Instr → Bool
  | .setWave0 v | .setWave1 v | .setFeedback v | .setMode v | .paramRsv4 v | .paramRsv5 v => wfPercent v
  | .setRatio _ | .setLevel _ | .init | .tick | .noteOn | .noteOff | .rsvOpc5 | .rsvOpc6 | .rsvOpc7 => true

end Sys2Proof
end

