-- ==== Sys2Proof/Machine/Assembler.lean ====
section
/-! DEFINITION. The assembler (R83, R84): a line of a program is the presentations the host makes for it. Port operands are not
in the word: they are the values the host puts on the ports for that step. -/

namespace Sys2Proof.Machine

/-- One line of assembler text (R83) or a pseudo-instruction (R84). Its numbers are what the text holds, unchecked. -/
inductive AsmLine where
  /-- `INIT s0=<x>, s1=<y>` -/
  | init (s0 s1 : Operand NumTerm)
  /-- `TICK f=<x>, m=<y>` -/
  | tick (f m : Operand NumTerm)
  | noteOn
  | noteOff
  /-- `SETP <slot>, <v>` -/
  | setp (slot v : Nat)
  | setWave0 (v : Nat)
  | setWave1 (v : Nat)
  | setFeedback (v : Nat)
  | setMode (v : Nat)
  | paramRsv4 (v : Nat)
  | paramRsv5 (v : Nat)
  | setRatio (v : Nat)
  | setLevel (v : Nat)
  | rsvOpc5
  | rsvOpc6
  | rsvOpc7
  /-- `BLOCK n, f=<x>, m=<y>` -/
  | block (n : Nat) (f m : Operand NumTerm)
  /-- `SET_RATIO_IDX <j>` -/
  | setRatioIdx (j : Nat)
  /-- `SET_WAVE <i>, <v>` -/
  | setWave (i v : Nat)
  /-- `FM` -/
  | fm
  /-- `PM` -/
  | pm
  /-- `NOP` -/
  | nop
  deriving DecidableEq, Repr

/-- Why the assembler refuses a line (R83, R84). -/
inductive AsmError where
  | valueOutOfRange
  | slotOutOfRange
  | ratioIndexOutOfRange
  | operatorOutOfRange
  deriving DecidableEq, Repr

/-- A command that reads no operand port: what stands on the ports has no effect (R71; DESIGN CHOICE, log entry 18). -/
def plainIssue (w : Word) : Issue NumTerm := { cmd := w, ports := Ports.zero }

/-- `TICK f=<x>, m=<y>` (R83). -/
def tickIssue (f m : Operand NumTerm) : Issue NumTerm := { cmd := encode .tick, ports := { Ports.zero with f := f, m := m } }

/-- `INIT s0=<x>, s1=<y>` (R83). -/
def initIssue (s0 s1 : Operand NumTerm) : Issue NumTerm := { cmd := encode .init, ports := { Ports.zero with s0 := s0, s1 := s1 } }

/-- `SETP <slot>, <v>`: `0x8000 | slot << 10 | v`, refused out of range (R83). -/
def assembleSetp (slot v : Nat) : Except AsmError (List (Issue NumTerm)) :=
  if wfSlot slot then
    if wfValue v then .ok [plainIssue (paramWord (BitVec.ofNat 3 slot) (BitVec.ofNat 10 v))] else .error .valueOutOfRange
  else .error .slotOutOfRange

/-- The presentations of one line (R83, R84). -/
def assemble : AsmLine → Except AsmError (List (Issue NumTerm))
  | .init s0 s1 => .ok [initIssue s0 s1]
  | .tick f m => .ok [tickIssue f m]
  | .noteOn => .ok [plainIssue (encode .noteOn)]
  | .noteOff => .ok [plainIssue (encode .noteOff)]
  | .setp slot v => assembleSetp slot v
  | .setWave0 v => assembleSetp 0 v
  | .setWave1 v => assembleSetp 1 v
  | .setFeedback v => assembleSetp 2 v
  | .setMode v => assembleSetp 3 v
  | .paramRsv4 v => assembleSetp 4 v
  | .paramRsv5 v => assembleSetp 5 v
  | .setRatio v => assembleSetp 6 v
  | .setLevel v => assembleSetp 7 v
  | .rsvOpc5 => .ok [plainIssue (encode .rsvOpc5)]
  | .rsvOpc6 => .ok [plainIssue (encode .rsvOpc6)]
  | .rsvOpc7 => .ok [plainIssue (encode .rsvOpc7)]
  | .block n f m => .ok (List.replicate n (tickIssue f m))
  | .setRatioIdx j => if wfRatioIdx j then assembleSetp 6 (j <<< 3) else .error .ratioIndexOutOfRange
  | .setWave i v => if wfOperator i then assembleSetp i v else .error .operatorOutOfRange
  | .fm => assembleSetp 3 0
  | .pm => assembleSetp 3 1
  | .nop => .ok [plainIssue (encode .noteOn)]

/-- A program: a finite list of lines, executed in order (R83). -/
def assembleProgram : List AsmLine → Except AsmError (List (Issue NumTerm))
  | [] => .ok []
  | l :: ls =>
    match assemble l, assembleProgram ls with
    | .ok a, .ok b => .ok (a ++ b)
    | .error e, _ => .error e
    | _, .error e => .error e

end Sys2Proof.Machine
end

