-- ==== Sys2Proof/Machine/Waveforms.lean ====
section
/-! DEFINITION. The normative number domain ℝ and the waveform generators over it (R8, R11, R101 to R107). Every generator is
total on ℝ, negative angles included, and reads no state (R101, R102). The spec's own decisions on negative angles and shapes are
followed (UNVERIFIED, log entry 11). -/

namespace Sys2Proof.Machine

/-- `frac(x) = x - floor(x)` (R11). -/
noncomputable def frac (x : ℝ) : ℝ := x - ⌊x⌋

/-- `emod(x, p) = x - p * floor(x / p)` (R11). -/
noncomputable def emod (x p : ℝ) : ℝ := x - p * ⌊x / p⌋

/-- `parity(n)` in {0, 1} (R11). -/
def parity (n : ℤ) : ℤ := n % 2

/-- The angle reduced to [0, 2π) (R102). -/
noncomputable def reduceAngle (θ : ℝ) : ℝ := emod θ (2 * Real.pi)

/-- The half-cycle index of an angle, 0 or 1: `floor(emod(θ, 2π) / π)` (R105, R106). -/
noncomputable def halfCycle (θ : ℝ) : ℤ := ⌊reduceAngle θ / Real.pi⌋

/-- The quadrant index of an angle, 0 to 3: `floor(emod(θ, 2π) / (π/2))` (R107). -/
noncomputable def quadrant (θ : ℝ) : ℤ := ⌊reduceAngle θ / (Real.pi / 2)⌋

/-- `SQR(θ)` (R105). -/
noncomputable def sqrWave (θ : ℝ) : ℝ := if halfCycle θ = 0 then 1 else -1

/-- `SAW(θ)` (R106). -/
noncomputable def sawWave (θ : ℝ) : ℝ :=
  let r := (reduceAngle θ - halfCycle θ * Real.pi) / Real.pi
  if halfCycle θ = 0 then r else -r

/-- `TRI(θ)` (R107). -/
noncomputable def triWave (θ : ℝ) : ℝ :=
  let r := (reduceAngle θ - quadrant θ * (Real.pi / 2)) / (Real.pi / 2)
  if quadrant θ = 0 then r
  else if quadrant θ = 1 then 1 - r
  else if quadrant θ = 2 then -r
  else r - 1

/-- The reference domain ℝ with `π` exact, for a block's parameters (R8, R11). `SIN` is the block's `SIN_IMPL` (R103).
The repository itself is floating (UNVERIFIED, log entry 10). -/
noncomputable def realDomain (P : Config.Params) : NumDomain ℝ where
  rat := fun q => (q : ℝ)
  pi := Real.pi
  sampleRate := P.sr
  ratioEntry := P.ratioTable
  add := fun a b => a + b
  sub := fun a b => a - b
  mul := fun a b => a * b
  div := fun a b => a / b
  frac := frac
  sin := P.sinImpl
  tri := triWave
  sqr := sqrWave
  saw := sawWave

/-- All that is open about a run: the parameters (R6), the real numbers the host puts on the ports (R71: any real), and the free
draws, each in [0, 1) (R10, R33). A claim about values holds for EVERY environment (DESIGN CHOICE, log
entry 2). -/
structure Env where
  params : Config.Params
  port : Nat → ℝ
  draw : Nat → ℝ
  draw_nonneg : ∀ n, 0 ≤ draw n
  draw_lt_one : ∀ n, draw n < 1

/-- The interpretation of terms in ℝ that an environment gives. -/
noncomputable def Env.interp (E : Env) : Interp ℝ where
  domain := realDomain E.params
  port := E.port
  draw := E.draw

/-- The real number a term is. -/
noncomputable def Env.val (E : Env) (x : NumTerm) : ℝ := x.eval E.interp

/-- Elaboration of a block with the sample rate the host fixes: refused with `BAD_PARAM` when `SR` is not finite or not
positive (R206; DEDUCED, log entry 15). -/
noncomputable def elaborate (c : Config.Constants) (sr : Operand ℝ) : Host.Outcome Config.Params Fault Refusal :=
  match sr with
  | .nonFinite => .refused .badParam
  | .finite x => open Classical in if h : 0 < x then .next { c with sr := x, sr_pos := h } else .refused .badParam

end Sys2Proof.Machine
end

