-- ==== Sys2Proof/Machine/Behaviour.lean ====
section
/-! DEFINITION. The block in ANY number domain: what each command answers, one step and a run, over the register file, the ports and
the host's commands as numbers of that domain. Over ℝ (`realDomain`) this is the spec's reference block (R8); the machine of
Step.lean is the same block over number terms. -/

namespace Sys2Proof.Machine

/-- What a command answers in a number domain. -/
def command {α : Type} (A : NumDomain α) (i : Instr) (b : Block α) (p : Ports α) : CmdResult α :=
  match i with
  | .init => initCommand A p
  | .tick => tickCommand A b p
  | .noteOn => noteOnCommand b
  | .noteOff => noteOffCommand A b
  | .setWave0 v => setWave0Command b v
  | .setWave1 v => setWave1Command b v
  | .setFeedback v => setFeedbackCommand A b v
  | .setMode v => setModeCommand b v
  | .paramRsv4 v => paramRsv4Command b v
  | .paramRsv5 v => paramRsv5Command b v
  | .setRatio v => setRatioCommand A b v
  | .setLevel v => setLevelCommand A b v
  | .rsvOpc5 => rsvOpc5Command b
  | .rsvOpc6 => rsvOpc6Command b
  | .rsvOpc7 => rsvOpc7Command b

/-- The machine's state with its numbers in a domain. -/
structure View (α : Type) where
  block : Block α
  input : Issue α
  response : Option α
  pending : List (Issue α)

/-- A state as an interpretation reads it: every term replaced by its value. -/
def State.view {α : Type} (I : Interp α) (s : State) : View α where
  block := s.block.map (NumTerm.eval I)
  input := s.input.map (NumTerm.eval I)
  response := s.response.map (NumTerm.eval I)
  pending := s.pending.map (Issue.map (NumTerm.eval I))

/-- Read the next state of an outcome through a function. -/
def mapNext {σ τ : Type} (g : σ → τ) : Host.Outcome σ Fault Refusal → Host.Outcome τ Fault Refusal
  | .next s => .next (g s)
  | .fault e => .fault e
  | .refused e => .refused e

/-- One command step in a number domain (R57). -/
def stepIn {α : Type} (A : NumDomain α) (v : View α) : Host.Outcome (View α) Fault Refusal :=
  match v.pending with
  | [] => .next { v with response := none }
  | next :: rest =>
    mapNext (fun r => { block := r.1, input := next, response := r.2, pending := rest })
      (command A (decode next.cmd) v.block next.ports)

/-- `k` command steps in a number domain, stopping at a refusal. -/
def runIn {α : Type} (A : NumDomain α) : Nat → View α → Host.Outcome (View α) Fault Refusal
  | 0, v => .next v
  | k + 1, v =>
    match stepIn A v with
    | .next v' => runIn A k v'
    | .fault e => .fault e
    | .refused e => .refused e

end Sys2Proof.Machine
end

