-- ==== Sys2Proof/Safety.lean ====
section
/-! DEFINITION. What counts as a sound block and a safe run, in the terms claims use: register values in ℝ for an environment,
the spec's invariants (R31), and the host's contract on port values (R71, R85). -/

namespace Sys2Proof.Machine

/-- The register file as real numbers, for an environment. -/
noncomputable def State.regs (E : Env) (s : State) : Block ℝ := s.block.map E.val

/-- A real phase: `0 <= phase < 1` (R25). -/
def PhaseInRange (x : ℝ) : Prop := 0 ≤ x ∧ x < 1

/-- A real coefficient: between 0 and 1 inclusive (R24, R26). -/
def CoefficientInRange (x : ℝ) : Prop := 0 ≤ x ∧ x ≤ 1

/-- The invariants of an initialised register file over ℝ (R31). The codes' ranges are in their types. -/
structure RegsInv (P : Config.Params) (b : Block ℝ) : Prop where
  phase0 : PhaseInRange b.op0.phase
  phase1 : PhaseInRange b.op1.phase
  carrier_ratio : b.op0.ratio = 1
  carrier_level : b.op0.level = 1
  carrier_fb : b.op0.fb = 0
  fb1 : CoefficientInRange b.op1.fb
  level1 : CoefficientInRange b.op1.level
  ratio1 : b.op1.ratio = 1 ∨ ∃ j, b.op1.ratio = P.ratioTable j

/-- The block's invariant: from the first `INIT` on, R31 holds. Before it nothing is claimed (R34). -/
def State.Inv (E : Env) (s : State) : Prop := s.block.initDone = true → RegsInv E.params (s.regs E)

/-- Whether a port holds a number. -/
def Operand.isFinite {α : Type} : Operand α → Bool
  | .finite _ => true
  | .nonFinite => false

/-- Every operand port holds a number, as it always does over ℝ (R206). -/
def Ports.isFinite {α : Type} (p : Ports α) : Bool := p.f.isFinite && p.m.isFinite && p.s0.isFinite && p.s1.isFinite

/-- Every command still to come has numbers on its ports. -/
def State.pendingFinite (s : State) : Bool := s.pending.all (fun i => i.ports.isFinite)

/-- The response, if any, is within [-1, 1] (R142). -/
def State.ResponseInRange (E : Env) (s : State) : Prop := ∀ y, s.response = some y → |E.val y| ≤ 1

end Sys2Proof.Machine
end

