-- ==== Sys2Proof/Certificates/Slice0/Obligations.lean ====
section
/-! DEFINITION. The statements for the provers. Every statement about a value holds for every environment `E`: every sample rate,
sine, ratio ROM, port value and draw the spec allows. A next state is written as the old state with what changed, so that the frame
is part of the equation. -/

open Sys2Proof Sys2Proof.Machine

/-! Encoding and fetching. -/

/-- Decoding an assembled command gives it back: no bit of a value is dropped (R72 to R76). -/
def Obligations.DecodeOfEncodeIsTheCommand : Prop := ∀ i : Instr, decode (encode i) = i

/-- A parameter word is the word of the command it decodes to, and any other word is but for its ignored bits (R74, R76). -/
def Obligations.EncodeOfDecodeIsTheWord : Prop :=
  ∀ w : Word, (opcField w = 4 → encode (decode w) = w) ∧ (opcField w ≠ 4 → encode (decode w) = w &&& 0xE000#16)

/-- Every word selects exactly one row of the opcode table, the row of the command it decodes to (R82). -/
def Obligations.EveryWordSelectsExactlyOneRow : Prop :=
  ∀ w : Word, ∃ r, opcodeTable.filter (fun r => r.selects w) = [r] ∧ r.mnemonic = (decode w).mnemonic

/-- Outside `PARAM` the low thirteen bits are ignored by the decoder and zero from the assembler (R76). -/
def Obligations.LowBitsIgnoredOutsideParam : Prop :=
  (∀ w w' : Word, opcField w ≠ 4 → opcField w' = opcField w → decode w' = decode w) ∧
    ∀ i : Instr, opcField (encode i) ≠ 4 → encode i &&& 0x1FFF#16 = 0

/-- Words written out from the encoding of R72 decode to the commands they stand for (95_test_vectors.md, encoding). -/
def Obligations.WrittenOutWordsDecode : Prop :=
  decode 0b0001111111111111#16 = .init ∧ decode 0b0011101010111100#16 = .tick ∧
  decode 0b0100000000000000#16 = .noteOn ∧ decode 0b0111111111111111#16 = .noteOff ∧
  decode 0b1000001111111111#16 = .setWave0 1023 ∧ decode 0b1000010000000001#16 = .setWave1 1 ∧
  decode 0b1000100000110010#16 = .setFeedback 50 ∧ decode 0b1000110000000001#16 = .setMode 1 ∧
  decode 0b1001000000000111#16 = .paramRsv4 7 ∧ decode 0b1001010001100100#16 = .paramRsv5 100 ∧
  decode 0b1001100000001000#16 = .setRatio 8 ∧ decode 0b1001111111111111#16 = .setLevel 1023 ∧
  decode 0b1010010110100101#16 = .rsvOpc5 ∧ decode 0b1100000000000000#16 = .rsvOpc6 ∧
  decode 0b1111111111111111#16 = .rsvOpc7

/-- A step runs the command that the next presented word decodes to, on that presentation's ports; with no command presented it
holds every register (R57, R71, R213; the hold is the model's, log entry 7). -/
def Obligations.StepRunsTheDecodedCommand : Prop :=
  (∀ (s : State) (next : Issue NumTerm) (rest : List (Issue NumTerm)), s.pending = next :: rest →
      step s = exec (decode next.cmd) { s with input := next, pending := rest }) ∧
    ∀ s : State, s.pending = [] → step s = .next { s with response := none }

/-- A word placed where the step takes its command is the command the next step runs, on the ports' present operands. -/
def Obligations.StepRunsThePlacedWord : Prop :=
  ∀ (s : State) (w : Word),
    step (s.withFetchWord 16 w.toNat) =
      exec (decode w)
        { s with input := { cmd := w, ports := (s.pending.headD s.input).ports }, pending := s.pending.tail }

/-- `SETP` assembles to `0x8000 | slot << 10 | v`, which decodes to that slot's command, and is refused out of range (R83). -/
def Obligations.SetpAssemblesToItsSlotsCommand : Prop :=
  (∀ (slot : Fin 8) (v : Nat), v ≤ 1023 → ∃ p : Issue NumTerm,
      assemble (.setp slot.val v) = .ok [p] ∧
      p.cmd = BitVec.ofNat 16 (0x8000 ||| slot.val <<< 10 ||| v) ∧
      decode p.cmd = decodeSlot slot (BitVec.ofNat 10 v)) ∧
  (∀ slot v : Nat, 7 < slot → assemble (.setp slot v) = .error .slotOutOfRange) ∧
  (∀ slot v : Nat, slot ≤ 7 → 1023 < v → assemble (.setp slot v) = .error .valueOutOfRange)

/-- `BLOCK n` is `n` presentations of `TICK` with the same operands (R84). -/
def Obligations.BlockIsRepeatedTick : Prop :=
  ∀ (n : Nat) (f m : Operand NumTerm), ∃ p : Issue NumTerm,
    assemble (.block n f m) = .ok (List.replicate n p) ∧ decode p.cmd = .tick ∧ p.ports.f = f ∧ p.ports.m = m

/-- `SET_RATIO_IDX j` selects ratio ROM entry `min(j, 63)` (R84, R170). -/
def Obligations.RatioIndexLineSelectsItsEntry : Prop :=
  ∀ j : Nat, j ≤ 127 → ∃ (p : Issue NumTerm) (v : Code),
    assemble (.setRatioIdx j) = .ok [p] ∧ decode p.cmd = .setRatio v ∧ (ratioIndex v).val = min j 63

/-! Lifecycle commands. -/

/-- `INIT` completes in every state whose seed ports hold numbers and leaves every register at its R33 value; a seed in [0, 1) is
the phase (R33, R161). -/
def Obligations.InitWritesEveryRegister : Prop :=
  ∀ (s : State) (a b : NumTerm), s.input.ports.s0 = .finite a → s.input.ports.s1 = .finite b →
    ∃ p0 p1 : NumTerm,
      exec .init s = .next { s with
        block :=
          { initDone := true
            op0 := { wave := 0, ratio := .rat 1, level := .rat 1, phase := p0, fb := .rat 0, last := .rat 0 }
            op1 := { wave := 0, ratio := .rat 1, level := .rat 1, phase := p1, fb := .rat 0, last := .rat 0 }
            mode := 0 }
        response := none } ∧
      ∀ E : Env,
        E.val p0 = E.val a - ⌊E.val a⌋ ∧ E.val p1 = E.val b - ⌊E.val b⌋ ∧
        (0 ≤ E.val a → E.val a < 1 → E.val p0 = E.val a) ∧ (0 ≤ E.val b → E.val b < 1 → E.val p1 = E.val b)

/-- `NOTE_ON` completes on an initialised block and changes no register; before `INIT` it is refused (R162). -/
def Obligations.NoteOnChangesNothing : Prop :=
  ∀ s : State,
    (s.block.initDone = true → exec .noteOn s = .next { s with response := none }) ∧
    (s.block.initDone = false → exec .noteOn s = .refused .preInit)

/-- `NOTE_OFF` completes on an initialised block, zeroes both last outputs and keeps every other register, so the next `TICK`'s
feedback term is zero; before `INIT` it is refused (R163). -/
def Obligations.NoteOffZeroesBothLastOutputs : Prop :=
  ∀ s : State,
    (s.block.initDone = true →
      ∃ z : NumTerm,
        exec .noteOff s = .next { s with
          block := { s.block with op0 := { s.block.op0 with last := z }, op1 := { s.block.op1 with last := z } }
          response := none } ∧
        ∀ E : Env, E.val z = 0 ∧ E.val s.block.op1.fb * E.val z = 0) ∧
    (s.block.initDone = false → exec .noteOff s = .refused .preInit)

/-! Parameter commands. -/

/-- `SET_WAVE0` stores its raw value as the carrier's code; a code above 3 makes every FM or PM `TICK` respond 0 and write 0 to the
carrier's last output (R164). -/
def Obligations.SetWave0StoresTheCarrierCode : Prop :=
  ∀ (v : Code) (s : State), s.block.initDone = true →
    ∃ t : State,
      exec (.setWave0 v) s = .next t ∧
      t = { s with block := { s.block with op0 := { s.block.op0 with wave := v } }, response := none } ∧
      (3 < v.toNat → s.block.mode = 0 ∨ s.block.mode = 1 →
        ∀ (p : Issue NumTerm) (f m : NumTerm), p.ports.f = .finite f → p.ports.m = .finite m →
          ∃ u y, exec .tick { t with input := p } = .next u ∧ u.response = some y ∧
            ∀ E : Env, E.val y = 0 ∧ E.val u.block.op0.last = 0)

/-- `SET_WAVE1` stores its raw value as the modulator's code; a code above 3 makes the next FM or PM `TICK` write 0 to the
modulator's last output, and its sample that of an unmodulated carrier (R165). -/
def Obligations.SetWave1StoresTheModulatorCode : Prop :=
  ∀ (v : Code) (s : State), s.block.initDone = true →
    ∃ t : State,
      exec (.setWave1 v) s = .next t ∧
      t = { s with block := { s.block with op1 := { s.block.op1 with wave := v } }, response := none } ∧
      (3 < v.toNat → s.block.mode = 0 ∨ s.block.mode = 1 →
        ∀ (p : Issue NumTerm) (f m : NumTerm), p.ports.f = .finite f → p.ports.m = .finite m →
          ∃ u y, exec .tick { t with input := p } = .next u ∧ u.response = some y ∧
            ∀ E : Env, E.val u.block.op1.last = 0 ∧
              E.val y = E.val s.block.op0.level *
                gen (realDomain E.params) (2 * Real.pi * E.val s.block.op0.phase) s.block.op0.wave)

/-- `SET_FEEDBACK` stores `min(v, 100) / 100` as the modulator's coefficient (R166). -/
def Obligations.SetFeedbackStoresTheClampedCoefficient : Prop :=
  ∀ (v : Code) (s : State), s.block.initDone = true →
    ∃ x : NumTerm,
      exec (.setFeedback v) s = .next { s with
        block := { s.block with op1 := { s.block.op1 with fb := x } }, response := none } ∧
      ∀ E : Env,
        (v.toNat ≤ 100 → E.val x = (v.toNat : ℝ) / 100) ∧ (100 < v.toNat → E.val x = 1)

/-- `SET_MODE` stores its raw value; with a value above 1 every following `TICK` responds 0 and keeps both last outputs; the mode
change itself keeps the last outputs and the phases (R167). -/
def Obligations.SetModeStoresTheModeCode : Prop :=
  ∀ (v : Code) (s : State), s.block.initDone = true →
    ∃ t : State,
      exec (.setMode v) s = .next t ∧
      t = { s with block := { s.block with mode := v }, response := none } ∧
      (1 < v.toNat →
        ∀ (p : Issue NumTerm) (f m : NumTerm), p.ports.f = .finite f → p.ports.m = .finite m →
          ∃ u y, exec .tick { t with input := p } = .next u ∧ u.response = some y ∧ (∀ E : Env, E.val y = 0) ∧
            u.block.mode = v ∧ u.block.op0.last = s.block.op0.last ∧ u.block.op1.last = s.block.op1.last)

/-- `PARAM_RSV4` and `PARAM_RSV5` complete on an initialised block and change no register, for every value (R168, R169). -/
def Obligations.ReservedSlotsChangeNothing : Prop :=
  ∀ (v : Code) (s : State), s.block.initDone = true →
    exec (.paramRsv4 v) s = .next { s with response := none } ∧
    exec (.paramRsv5 v) s = .next { s with response := none }

/-- `SET_RATIO` stores the ratio ROM's entry `min(v >> 3, 63)` as the modulator's ratio (R170). -/
def Obligations.SetRatioStoresTheRomEntry : Prop :=
  ∀ (v : Code) (s : State), s.block.initDone = true →
    ∃ x : NumTerm,
      exec (.setRatio v) s = .next { s with
        block := { s.block with op1 := { s.block.op1 with ratio := x } }, response := none } ∧
      ∀ E : Env,
        (∀ j : Fin 64, j.val = min (v.toNat >>> 3) 63 → E.val x = E.params.ratioTable j) ∧
        (v.toNat < 8 → E.val x = 1 / 2) ∧ (8 ≤ v.toNat → v.toNat < 16 → E.val x = 71 / 100) ∧
        (504 ≤ v.toNat → E.val x = E.params.ratioTable 63)

/-- `SET_LEVEL` stores `v / 1023` as the modulator's level: within [0, 1], and never one half (R171). -/
def Obligations.SetLevelStoresTheLinearLevel : Prop :=
  ∀ (v : Code) (s : State), s.block.initDone = true →
    ∃ x : NumTerm,
      exec (.setLevel v) s = .next { s with
        block := { s.block with op1 := { s.block.op1 with level := x } }, response := none } ∧
      ∀ E : Env, E.val x = (v.toNat : ℝ) / 1023 ∧ 0 ≤ E.val x ∧ E.val x ≤ 1 ∧ E.val x ≠ 1 / 2

/-- Setting a parameter, or clearing the last outputs, twice is the same as once (R58). -/
def Obligations.SettersAreIdempotent : Prop :=
  ∀ (i : Instr) (s t : State), i ≠ .init → i ≠ .tick → exec i s = .next t → exec i t = .next t

/-! Reserved opcodes and refusals. -/

/-- Under this block's policy the reserved opcodes complete on an initialised block and change no register; before `INIT` they are
refused; under the other policy they would be refused by name (R172 to R174). -/
def Obligations.ReservedOpcodesAreNoOps : Prop :=
  ∀ (i : Instr) (s : State), i = .rsvOpc5 ∨ i = .rsvOpc6 ∨ i = .rsvOpc7 →
    (s.block.initDone = true → exec i s = .next { s with response := none }) ∧
    (s.block.initDone = false → exec i s = .refused .preInit) ∧
    reservedUnder .refuse s.block = .refused .reserved

/-- Before the first `INIT` every other command is refused with `PRE_INIT` (R224). -/
def Obligations.CommandsBeforeInitAreRefused : Prop :=
  ∀ (i : Instr) (s : State), i ≠ .init → s.block.initDone = false → exec i s = .refused .preInit

/-- `TICK` on an initialised block and `INIT` refuse an operand port without a finite number (R206, R141). -/
def Obligations.NonFiniteOperandsAreRefused : Prop :=
  (∀ s : State, s.block.initDone = true → s.input.ports.f = .nonFinite ∨ s.input.ports.m = .nonFinite →
      exec .tick s = .refused .nonFinite) ∧
    ∀ s : State, s.input.ports.s0 = .nonFinite ∨ s.input.ports.s1 = .nonFinite → exec .init s = .refused .nonFinite

/-- Elaboration takes exactly the positive finite sample rates, and keeps what it is given (R206, R6). -/
def Obligations.ElaborationTakesPositiveRates : Prop :=
  ∀ (c : Config.Constants) (sr : Operand ℝ),
    (elaborate c sr = .refused .badParam ↔ ¬ ∃ x, sr = .finite x ∧ 0 < x) ∧
    ∀ x, sr = .finite x → 0 < x → ∃ P, elaborate c sr = .next P ∧ P.sr = x ∧ P.toConstants = c

/-! The tick. -/

/-- In FM and PM mode `TICK` completes: the modulator's output from its old last output, the carrier's from the modulator's new one,
the carrier's the sample; no register but the last outputs and the phases changes (R132 to R136). -/
def Obligations.TickInFmOrPmMode : Prop :=
  ∀ (s : State) (f m : NumTerm), s.block.initDone = true → s.block.mode = 0 ∨ s.block.mode = 1 →
    s.input.ports.f = .finite f → s.input.ports.m = .finite m →
    ∃ y0 y1 p0 p1 : NumTerm,
      exec .tick s = .next { s with
        block := { s.block with
          op0 := { s.block.op0 with phase := p0, last := y0 }
          op1 := { s.block.op1 with phase := p1, last := y1 } }
        response := some y0 } ∧
      ∀ E : Env,
        (s.block.mode = 0 →
          E.val y1 = E.val s.block.op1.level * (1 / 2 + 1 / 2 * E.val m) *
            gen (realDomain E.params)
              (2 * Real.pi * (E.val s.block.op1.phase + E.val s.block.op1.fb * E.val s.block.op1.last))
              s.block.op1.wave) ∧
        (s.block.mode = 1 →
          E.val y1 = E.val s.block.op1.level * (1 / 2 + 1 / 2 * E.val m) *
            gen (realDomain E.params)
              (2 * Real.pi * E.val s.block.op1.phase + E.val s.block.op1.fb * E.val s.block.op1.last)
              s.block.op1.wave) ∧
        E.val y0 = E.val s.block.op0.level *
          gen (realDomain E.params) (2 * Real.pi * E.val s.block.op0.phase + E.val y1) s.block.op0.wave

/-- In an unknown mode `TICK` completes with the sample 0, writes no last output, and still advances the phases (R137). -/
def Obligations.TickInUnknownModeIsSilent : Prop :=
  ∀ (s : State) (f m : NumTerm), s.block.initDone = true → s.block.mode ≠ 0 → s.block.mode ≠ 1 →
    s.input.ports.f = .finite f → s.input.ports.m = .finite m →
    ∃ z p0 p1 : NumTerm,
      exec .tick s = .next { s with
        block := { s.block with
          op0 := { s.block.op0 with phase := p0 }
          op1 := { s.block.op1 with phase := p1 } }
        response := some z } ∧
      ∀ E : Env, E.val z = 0 ∧
        E.val p0 = frac (E.val s.block.op0.phase + E.val f * E.val s.block.op0.ratio / E.params.sr) ∧
        E.val p1 = frac (E.val s.block.op1.phase + E.val f * E.val s.block.op1.ratio / E.params.sr)

/-- In every mode `TICK` advances both phases exactly once, from the phases the sample was computed from, into [0, 1)
(R139, R140, R145). -/
def Obligations.TickAdvancesBothPhases : Prop :=
  ∀ (s : State) (f m : NumTerm), s.block.initDone = true →
    s.input.ports.f = .finite f → s.input.ports.m = .finite m →
    ∃ t : State, exec .tick s = .next t ∧
      ∀ E : Env,
        E.val t.block.op0.phase = frac (E.val s.block.op0.phase + E.val f * E.val s.block.op0.ratio / E.params.sr) ∧
        E.val t.block.op1.phase = frac (E.val s.block.op1.phase + E.val f * E.val s.block.op1.ratio / E.params.sr) ∧
        (0 ≤ E.val t.block.op0.phase ∧ E.val t.block.op0.phase < 1) ∧
        (0 ≤ E.val t.block.op1.phase ∧ E.val t.block.op1.phase < 1)

/-- The response of every `TICK` of a sound block is within [-1, 1], 0 in an unknown mode; the modulator's output is within its level
times the depth, and within 1 for a modulation input in [-1, 1] (R142). -/
def Obligations.TickResponseWithinUnit : Prop :=
  ∀ (E : Env) (s : State) (f m : NumTerm), s.block.initDone = true → s.Inv E →
    s.input.ports.f = .finite f → s.input.ports.m = .finite m →
    ∃ t y, exec .tick s = .next t ∧ t.response = some y ∧ |E.val y| ≤ 1 ∧
      (s.block.mode ≠ 0 → s.block.mode ≠ 1 → E.val y = 0) ∧
      (s.block.mode = 0 ∨ s.block.mode = 1 →
        |E.val t.block.op1.last| ≤ E.val s.block.op1.level * |1 / 2 + 1 / 2 * E.val m| ∧
        (|E.val m| ≤ 1 → |E.val t.block.op1.last| ≤ 1))

/-- Two ticks from states that differ only in the mode, FM against PM, give the same sample, last outputs and phases wherever the
modulator's waveform does not separate the two angles; in particular when the feedback term is 0 (R143). -/
def Obligations.FmAndPmDifferOnlyByFeedback : Prop :=
  ∀ (E : Env) (s : State) (f m : NumTerm), s.block.initDone = true → s.block.mode = 0 →
    s.input.ports.f = .finite f → s.input.ports.m = .finite m →
    (E.val s.block.op1.fb * E.val s.block.op1.last = 0 ∨
      gen (realDomain E.params)
          (2 * Real.pi * E.val s.block.op1.phase + 2 * Real.pi * (E.val s.block.op1.fb * E.val s.block.op1.last))
          s.block.op1.wave =
        gen (realDomain E.params)
          (2 * Real.pi * E.val s.block.op1.phase + E.val s.block.op1.fb * E.val s.block.op1.last) s.block.op1.wave) →
    ∃ t t' y y',
      exec .tick s = .next t ∧ exec .tick { s with block := { s.block with mode := 1 } } = .next t' ∧
      t.response = some y ∧ t'.response = some y' ∧ E.val y = E.val y' ∧
      t'.regs E = { t.regs E with mode := 1 }

/-! Which command writes which register. -/

/-- No command but `INIT` changes the carrier's ratio, level or feedback coefficient (R23, R24, R26). -/
def Obligations.CarrierConstantsWrittenOnlyByInit : Prop :=
  ∀ (i : Instr) (s t : State), i ≠ .init → exec i s = .next t →
    t.block.op0.ratio = s.block.op0.ratio ∧ t.block.op0.level = s.block.op0.level ∧ t.block.op0.fb = s.block.op0.fb

/-- No command but `INIT` and `TICK` changes a phase; in particular no note event does (R25, R229). -/
def Obligations.PhasesWrittenOnlyByInitAndTick : Prop :=
  ∀ (i : Instr) (s t : State), i ≠ .init → i ≠ .tick → exec i s = .next t →
    t.block.op0.phase = s.block.op0.phase ∧ t.block.op1.phase = s.block.op1.phase

/-- No command but `INIT`, `TICK` and `NOTE_OFF` changes a last output (R27). -/
def Obligations.LastOutputsWrittenOnlyByThree : Prop :=
  ∀ (i : Instr) (s t : State), i ≠ .init → i ≠ .tick → i ≠ .noteOff → exec i s = .next t →
    t.block.op0.last = s.block.op0.last ∧ t.block.op1.last = s.block.op1.last

/-- Each parameter register is changed by `INIT` and its own command only (R22, R23, R24, R26, R28). -/
def Obligations.ParametersWrittenOnlyByTheirCommand : Prop :=
  ∀ (i : Instr) (s t : State), i ≠ .init → exec i s = .next t →
    ((∀ v, i ≠ .setWave0 v) → t.block.op0.wave = s.block.op0.wave) ∧
    ((∀ v, i ≠ .setWave1 v) → t.block.op1.wave = s.block.op1.wave) ∧
    ((∀ v, i ≠ .setFeedback v) → t.block.op1.fb = s.block.op1.fb) ∧
    ((∀ v, i ≠ .setMode v) → t.block.mode = s.block.mode) ∧
    ((∀ v, i ≠ .setRatio v) → t.block.op1.ratio = s.block.op1.ratio) ∧
    ((∀ v, i ≠ .setLevel v) → t.block.op1.level = s.block.op1.level)

/-- `init_done` is false only before the first `INIT`: any command that answers leaves it true, and the one that sets it is `INIT`
(R29). -/
def Obligations.InitDoneIsSetByInitAndKept : Prop :=
  ∀ (i : Instr) (s t : State), exec i s = .next t →
    t.block.initDone = true ∧ (s.block.initDone = false → i = .init)

/-- `sample_valid` is 1 for the step of a `TICK` and 0 for every other command (R71). -/
def Obligations.SampleValidExactlyOnTick : Prop :=
  ∀ (i : Instr) (s t : State), exec i s = .next t → (t.sampleValid = true ↔ i = .tick)

/-- The operand ports a command does not use have no effect (R71). -/
def Obligations.UnusedPortsHaveNoEffect : Prop :=
  ∀ (i : Instr) (s : State) (p : Issue NumTerm),
    (i = .tick → p.ports.f = s.input.ports.f ∧ p.ports.m = s.input.ports.m) →
    (i = .init → p.ports.s0 = s.input.ports.s0 ∧ p.ports.s1 = s.input.ports.s1) →
    exec i { s with input := p } = mapNext (fun t => { t with input := p }) (exec i s)

/-! The waveforms over ℝ. -/

/-- The multiplexer selects sine, triangle, square and sawtooth by codes 0 to 3 and gives 0 for every other code (R108). -/
def Obligations.MultiplexerSelectsByCode : Prop :=
  ∀ (P : Config.Params) (θ : ℝ),
    gen (realDomain P) θ 0 = P.sinImpl θ ∧ gen (realDomain P) θ 1 = triWave θ ∧
    gen (realDomain P) θ 2 = sqrWave θ ∧ gen (realDomain P) θ 3 = sawWave θ ∧
    ∀ c : Code, 3 < c.toNat → gen (realDomain P) θ c = 0

/-- The generators as functions of the fraction of a cycle (R111). -/
def Obligations.WaveformsInCycleForm : Prop :=
  ∀ θ : ℝ,
    let u := frac (θ / (2 * Real.pi))
    sqrWave θ = (if u < 1 / 2 then 1 else -1) ∧
    sawWave θ = (if u < 1 / 2 then 2 * u else -(2 * u - 1)) ∧
    (⌊4 * u⌋ = 0 → triWave θ = 4 * u - ⌊4 * u⌋) ∧
    (⌊4 * u⌋ = 1 → triWave θ = 1 - (4 * u - ⌊4 * u⌋)) ∧
    (⌊4 * u⌋ = 2 → triWave θ = -(4 * u - ⌊4 * u⌋)) ∧
    (⌊4 * u⌋ = 3 → triWave θ = (4 * u - ⌊4 * u⌋) - 1) ∧
    0 ≤ ⌊4 * u⌋ ∧ ⌊4 * u⌋ ≤ 3

/-- Every generator stays in its range for every real angle, and so does the multiplexer for every code (R109). -/
def Obligations.WaveformsStayInRange : Prop :=
  ∀ (P : Config.Params) (θ : ℝ) (c : Code),
    (-1 ≤ triWave θ ∧ triWave θ ≤ 1) ∧ (sqrWave θ = 1 ∨ sqrWave θ = -1) ∧ (-1 < sawWave θ ∧ sawWave θ < 1) ∧
    |P.sinImpl θ| ≤ 1 ∧ |gen (realDomain P) θ c| ≤ 1

/-- Triangle, square and sawtooth have period 2π on all of ℝ, and the sine has it within twice its error bound (R110). -/
def Obligations.WaveformsArePeriodic : Prop :=
  ∀ (P : Config.Params) (θ : ℝ),
    triWave (θ + 2 * Real.pi) = triWave θ ∧ sqrWave (θ + 2 * Real.pi) = sqrWave θ ∧
    sawWave (θ + 2 * Real.pi) = sawWave θ ∧ |P.sinImpl (θ + 2 * Real.pi) - P.sinImpl θ| ≤ 2 * P.epsSin

/-- The half-cycle index has the parity of `floor(θ / π)`, for negative angles too (R105). -/
def Obligations.HalfCycleHasTheParityOfTheAngle : Prop := ∀ θ : ℝ, halfCycle θ = parity ⌊θ / Real.pi⌋

/-- An angle reduces into [0, 2π), from which it differs by a whole number of cycles (R102). -/
def Obligations.AngleReducesIntoOneCycle : Prop :=
  ∀ θ : ℝ, 0 ≤ reduceAngle θ ∧ reduceAngle θ < 2 * Real.pi ∧ ∃ n : ℤ, θ = reduceAngle θ + n * (2 * Real.pi)

/-- The triangle is continuous everywhere (R107, corner cases). -/
def Obligations.TriangleIsContinuous : Prop := Continuous triWave

/-! The block's invariants, its runs, and its meaning in every number domain. -/

/-- The invariant of R31 holds at reset. -/
def Obligations.ResetIsSound : Prop := ∀ E : Env, State.reset.block.initDone = true ∧ State.reset.Inv E

/-- Every step keeps the invariants of R31, `init_done` among them, from every state that meets them, and the step of the first
`INIT` establishes them. -/
def Obligations.StepKeepsTheInvariant : Prop :=
  ∀ (E : Env) (s t : State), s.Inv E → step s = .next t →
    t.Inv E ∧ (s.block.initDone = true → t.block.initDone = true)

/-- Along every run of a sound block the response of the last step, if any, is within [-1, 1] (R142, R207). -/
def Obligations.RunsRespondWithinUnit : Prop :=
  ∀ (E : Env) (s t : State) (k : Nat), s.Inv E → Sys2Proof.core.run (k + 1) s = .next t → t.ResponseInRange E

/-- An initialised block whose operands are all finite never stops: every run of any length goes through (R207). -/
def Obligations.FiniteOperandsNeverStop : Prop :=
  ∀ (s : State) (k : Nat), s.block.initDone = true → s.pendingFinite = true →
    ∃ t, Sys2Proof.core.run k s = .next t ∧ t.block.initDone = true ∧ t.pending = s.pending.drop k

/-- After `n` ticks at one base frequency each phase is the start phase plus `n` increments, wrapped once, whatever the modulation
inputs, the mode and the waveforms (R139, R140; the closed form of 95_test_vectors.md E9). -/
def Obligations.PhaseAfterManyTicks : Prop :=
  ∀ (E : Env) (f : NumTerm) (ms : List NumTerm) (rest : List (Issue NumTerm)) (s : State), s.block.initDone = true →
    PhaseInRange (E.val s.block.op0.phase) → PhaseInRange (E.val s.block.op1.phase) →
    s.pending = ms.map (fun m => tickIssue (.finite f) (.finite m)) ++ rest →
    ∃ t, Sys2Proof.core.run ms.length s = .next t ∧ t.pending = rest ∧
      E.val t.block.op0.phase =
        frac (E.val s.block.op0.phase + ms.length * (E.val f * E.val s.block.op0.ratio / E.params.sr)) ∧
      E.val t.block.op1.phase =
        frac (E.val s.block.op1.phase + ms.length * (E.val f * E.val s.block.op1.ratio / E.params.sr))

/-- Two runs of the same commands and port operands that begin with `INIT` are the same run, whatever the registers held before
(R144, R34). -/
def Obligations.RunsFromInitAreDetermined : Prop :=
  ∀ (s s' : State) (first : Issue NumTerm) (rest : List (Issue NumTerm)) (k : Nat),
    decode first.cmd = .init → s.pending = first :: rest → s'.pending = first :: rest →
    Sys2Proof.core.run (k + 1) s = Sys2Proof.core.run (k + 1) s'

/-- Two states whose terms have the same real values, however they are written, run alike for any number of steps (R144). -/
def Obligations.EqualValuesRunAlike : Prop :=
  ∀ (E : Env) (s s' : State) (k : Nat), s.view E.interp = s'.view E.interp →
    mapNext (State.view E.interp) (Sys2Proof.core.run k s) = mapNext (State.view E.interp) (Sys2Proof.core.run k s')

/-- In EVERY number domain, ℝ and any floating format alike, a run of the machine over terms is the run of the block in that
domain (R6 `NUM`, R8). -/
def Obligations.RunRefinesEveryNumberDomain : Prop :=
  ∀ (α : Type) (I : Interp α) (s : State) (k : Nat),
    mapNext (State.view I) (Sys2Proof.core.run k s) = runIn I.domain k (s.view I)
end

