-- ==== Sys2Proof/Laws/State.lean ====
section
/-! SUPPORT. One lemma per field per register write, true by definition, so that no proof unfolds a record update. -/

namespace Sys2Proof.Machine

@[simp] theorem Operator.setWave_wave {α : Type} (o : Operator α) (x : Code) : (o.setWave x).wave = x := rfl
@[simp] theorem Operator.setWave_ratio {α : Type} (o : Operator α) (x : Code) : (o.setWave x).ratio = o.ratio := rfl
@[simp] theorem Operator.setWave_level {α : Type} (o : Operator α) (x : Code) : (o.setWave x).level = o.level := rfl
@[simp] theorem Operator.setWave_phase {α : Type} (o : Operator α) (x : Code) : (o.setWave x).phase = o.phase := rfl
@[simp] theorem Operator.setWave_fb {α : Type} (o : Operator α) (x : Code) : (o.setWave x).fb = o.fb := rfl
@[simp] theorem Operator.setWave_last {α : Type} (o : Operator α) (x : Code) : (o.setWave x).last = o.last := rfl

@[simp] theorem Operator.setRatio_wave {α : Type} (o : Operator α) (x : α) : (o.setRatio x).wave = o.wave := rfl
@[simp] theorem Operator.setRatio_ratio {α : Type} (o : Operator α) (x : α) : (o.setRatio x).ratio = x := rfl
@[simp] theorem Operator.setRatio_level {α : Type} (o : Operator α) (x : α) : (o.setRatio x).level = o.level := rfl
@[simp] theorem Operator.setRatio_phase {α : Type} (o : Operator α) (x : α) : (o.setRatio x).phase = o.phase := rfl
@[simp] theorem Operator.setRatio_fb {α : Type} (o : Operator α) (x : α) : (o.setRatio x).fb = o.fb := rfl
@[simp] theorem Operator.setRatio_last {α : Type} (o : Operator α) (x : α) : (o.setRatio x).last = o.last := rfl

@[simp] theorem Operator.setLevel_wave {α : Type} (o : Operator α) (x : α) : (o.setLevel x).wave = o.wave := rfl
@[simp] theorem Operator.setLevel_ratio {α : Type} (o : Operator α) (x : α) : (o.setLevel x).ratio = o.ratio := rfl
@[simp] theorem Operator.setLevel_level {α : Type} (o : Operator α) (x : α) : (o.setLevel x).level = x := rfl
@[simp] theorem Operator.setLevel_phase {α : Type} (o : Operator α) (x : α) : (o.setLevel x).phase = o.phase := rfl
@[simp] theorem Operator.setLevel_fb {α : Type} (o : Operator α) (x : α) : (o.setLevel x).fb = o.fb := rfl
@[simp] theorem Operator.setLevel_last {α : Type} (o : Operator α) (x : α) : (o.setLevel x).last = o.last := rfl

@[simp] theorem Operator.setPhase_wave {α : Type} (o : Operator α) (x : α) : (o.setPhase x).wave = o.wave := rfl
@[simp] theorem Operator.setPhase_ratio {α : Type} (o : Operator α) (x : α) : (o.setPhase x).ratio = o.ratio := rfl
@[simp] theorem Operator.setPhase_level {α : Type} (o : Operator α) (x : α) : (o.setPhase x).level = o.level := rfl
@[simp] theorem Operator.setPhase_phase {α : Type} (o : Operator α) (x : α) : (o.setPhase x).phase = x := rfl
@[simp] theorem Operator.setPhase_fb {α : Type} (o : Operator α) (x : α) : (o.setPhase x).fb = o.fb := rfl
@[simp] theorem Operator.setPhase_last {α : Type} (o : Operator α) (x : α) : (o.setPhase x).last = o.last := rfl

@[simp] theorem Operator.setFb_wave {α : Type} (o : Operator α) (x : α) : (o.setFb x).wave = o.wave := rfl
@[simp] theorem Operator.setFb_ratio {α : Type} (o : Operator α) (x : α) : (o.setFb x).ratio = o.ratio := rfl
@[simp] theorem Operator.setFb_level {α : Type} (o : Operator α) (x : α) : (o.setFb x).level = o.level := rfl
@[simp] theorem Operator.setFb_phase {α : Type} (o : Operator α) (x : α) : (o.setFb x).phase = o.phase := rfl
@[simp] theorem Operator.setFb_fb {α : Type} (o : Operator α) (x : α) : (o.setFb x).fb = x := rfl
@[simp] theorem Operator.setFb_last {α : Type} (o : Operator α) (x : α) : (o.setFb x).last = o.last := rfl

@[simp] theorem Operator.setLast_wave {α : Type} (o : Operator α) (x : α) : (o.setLast x).wave = o.wave := rfl
@[simp] theorem Operator.setLast_ratio {α : Type} (o : Operator α) (x : α) : (o.setLast x).ratio = o.ratio := rfl
@[simp] theorem Operator.setLast_level {α : Type} (o : Operator α) (x : α) : (o.setLast x).level = o.level := rfl
@[simp] theorem Operator.setLast_phase {α : Type} (o : Operator α) (x : α) : (o.setLast x).phase = o.phase := rfl
@[simp] theorem Operator.setLast_fb {α : Type} (o : Operator α) (x : α) : (o.setLast x).fb = o.fb := rfl
@[simp] theorem Operator.setLast_last {α : Type} (o : Operator α) (x : α) : (o.setLast x).last = x := rfl

@[simp] theorem Block.setOp0_initDone {α : Type} (b : Block α) (x : Operator α) : (b.setOp0 x).initDone = b.initDone := rfl
@[simp] theorem Block.setOp0_op0 {α : Type} (b : Block α) (x : Operator α) : (b.setOp0 x).op0 = x := rfl
@[simp] theorem Block.setOp0_op1 {α : Type} (b : Block α) (x : Operator α) : (b.setOp0 x).op1 = b.op1 := rfl
@[simp] theorem Block.setOp0_mode {α : Type} (b : Block α) (x : Operator α) : (b.setOp0 x).mode = b.mode := rfl

@[simp] theorem Block.setOp1_initDone {α : Type} (b : Block α) (x : Operator α) : (b.setOp1 x).initDone = b.initDone := rfl
@[simp] theorem Block.setOp1_op0 {α : Type} (b : Block α) (x : Operator α) : (b.setOp1 x).op0 = b.op0 := rfl
@[simp] theorem Block.setOp1_op1 {α : Type} (b : Block α) (x : Operator α) : (b.setOp1 x).op1 = x := rfl
@[simp] theorem Block.setOp1_mode {α : Type} (b : Block α) (x : Operator α) : (b.setOp1 x).mode = b.mode := rfl

@[simp] theorem Block.setMode_initDone {α : Type} (b : Block α) (x : Code) : (b.setMode x).initDone = b.initDone := rfl
@[simp] theorem Block.setMode_op0 {α : Type} (b : Block α) (x : Code) : (b.setMode x).op0 = b.op0 := rfl
@[simp] theorem Block.setMode_op1 {α : Type} (b : Block α) (x : Code) : (b.setMode x).op1 = b.op1 := rfl
@[simp] theorem Block.setMode_mode {α : Type} (b : Block α) (x : Code) : (b.setMode x).mode = x := rfl

@[simp] theorem State.setBlock_block (s : State) (x : Block NumTerm) : (s.setBlock x).block = x := rfl
@[simp] theorem State.setBlock_input (s : State) (x : Block NumTerm) : (s.setBlock x).input = s.input := rfl
@[simp] theorem State.setBlock_response (s : State) (x : Block NumTerm) : (s.setBlock x).response = s.response := rfl
@[simp] theorem State.setBlock_pending (s : State) (x : Block NumTerm) : (s.setBlock x).pending = s.pending := rfl

@[simp] theorem State.setResponse_block (s : State) (x : Option NumTerm) : (s.setResponse x).block = s.block := rfl
@[simp] theorem State.setResponse_input (s : State) (x : Option NumTerm) : (s.setResponse x).input = s.input := rfl
@[simp] theorem State.setResponse_response (s : State) (x : Option NumTerm) : (s.setResponse x).response = x := rfl
@[simp] theorem State.setResponse_pending (s : State) (x : Option NumTerm) : (s.setResponse x).pending = s.pending := rfl

@[simp] theorem State.setInput_block (s : State) (x : Issue NumTerm) : (s.setInput x).block = s.block := rfl
@[simp] theorem State.setInput_input (s : State) (x : Issue NumTerm) : (s.setInput x).input = x := rfl
@[simp] theorem State.setInput_response (s : State) (x : Issue NumTerm) : (s.setInput x).response = s.response := rfl
@[simp] theorem State.setInput_pending (s : State) (x : Issue NumTerm) : (s.setInput x).pending = s.pending := rfl

@[simp] theorem State.setPending_block (s : State) (x : List (Issue NumTerm)) : (s.setPending x).block = s.block := rfl
@[simp] theorem State.setPending_input (s : State) (x : List (Issue NumTerm)) : (s.setPending x).input = s.input := rfl
@[simp] theorem State.setPending_response (s : State) (x : List (Issue NumTerm)) : (s.setPending x).response = s.response := rfl
@[simp] theorem State.setPending_pending (s : State) (x : List (Issue NumTerm)) : (s.setPending x).pending = x := rfl

/-! Reading a register file through a function. -/

@[simp] theorem Operator.map_wave {α β : Type} (g : α → β) (o : Operator α) : (o.map g).wave = o.wave := rfl
@[simp] theorem Operator.map_ratio {α β : Type} (g : α → β) (o : Operator α) : (o.map g).ratio = g o.ratio := rfl
@[simp] theorem Operator.map_level {α β : Type} (g : α → β) (o : Operator α) : (o.map g).level = g o.level := rfl
@[simp] theorem Operator.map_phase {α β : Type} (g : α → β) (o : Operator α) : (o.map g).phase = g o.phase := rfl
@[simp] theorem Operator.map_fb {α β : Type} (g : α → β) (o : Operator α) : (o.map g).fb = g o.fb := rfl
@[simp] theorem Operator.map_last {α β : Type} (g : α → β) (o : Operator α) : (o.map g).last = g o.last := rfl
@[simp] theorem Block.map_initDone {α β : Type} (g : α → β) (b : Block α) : (b.map g).initDone = b.initDone := rfl
@[simp] theorem Block.map_op0 {α β : Type} (g : α → β) (b : Block α) : (b.map g).op0 = b.op0.map g := rfl
@[simp] theorem Block.map_op1 {α β : Type} (g : α → β) (b : Block α) : (b.map g).op1 = b.op1.map g := rfl
@[simp] theorem Block.map_mode {α β : Type} (g : α → β) (b : Block α) : (b.map g).mode = b.mode := rfl
@[simp] theorem Ports.map_f {α β : Type} (g : α → β) (p : Ports α) : (p.map g).f = p.f.map g := rfl
@[simp] theorem Ports.map_m {α β : Type} (g : α → β) (p : Ports α) : (p.map g).m = p.m.map g := rfl
@[simp] theorem Ports.map_s0 {α β : Type} (g : α → β) (p : Ports α) : (p.map g).s0 = p.s0.map g := rfl
@[simp] theorem Ports.map_s1 {α β : Type} (g : α → β) (p : Ports α) : (p.map g).s1 = p.s1.map g := rfl
@[simp] theorem Operand.map_finite {α β : Type} (g : α → β) (x : α) : (Operand.finite x).map g = .finite (g x) := rfl
@[simp] theorem Operand.map_nonFinite {α β : Type} (g : α → β) : (Operand.nonFinite : Operand α).map g = .nonFinite := rfl
@[simp] theorem Issue.map_cmd {α β : Type} (g : α → β) (i : Issue α) : (i.map g).cmd = i.cmd := rfl
@[simp] theorem Issue.map_ports {α β : Type} (g : α → β) (i : Issue α) : (i.map g).ports = i.ports.map g := rfl

end Sys2Proof.Machine
end

