-- ==== Sys2Proof/Laws/Ops.lean ====
section
/-! SUPPORT. One lemma per shared operation: everything it can do. Provers cite these and do not unfold the operations. -/

namespace Sys2Proof.Machine

variable {α β : Type}

/-- A gated command answers only after `INIT`. -/
theorem afterInit_next_iff (b : Block α) (r : CmdResult α) (x : Block α × Option α) :
    afterInit b r = .next x ↔ b.initDone = true ∧ r = .next x := by
  unfold afterInit; split <;> simp_all

/-- Before `INIT` a gated command is refused. -/
theorem afterInit_preInit (b : Block α) (r : CmdResult α) (h : b.initDone = false) :
    afterInit b r = .refused .preInit := by
  simp [afterInit, h]

/-- After `INIT` a gated command is its body. -/
theorem afterInit_ready (b : Block α) (r : CmdResult α) (h : b.initDone = true) : afterInit b r = r := by
  simp [afterInit, h]

/-- A writing command answers only after `INIT`, with the written registers and no response. -/
theorem writing_next_iff (b b' : Block α) (x : Block α × Option α) :
    writing b b' = .next x ↔ b.initDone = true ∧ x = (b', none) := by
  unfold writing
  rw [afterInit_next_iff]
  constructor
  · rintro ⟨h, e⟩; cases e; exact ⟨h, rfl⟩
  · rintro ⟨h, rfl⟩; exact ⟨h, rfl⟩

/-- After `INIT` a writing command answers. -/
theorem writing_ready (b b' : Block α) (h : b.initDone = true) : writing b b' = .next (b', none) :=
  afterInit_ready b _ h

/-- Everything `commit` can answer. -/
theorem commit_next_iff (s t : State) (r : CmdResult NumTerm) :
    commit s r = .next t ↔ ∃ b y, r = .next (b, y) ∧ t = (s.setBlock b).setResponse y := by
  unfold commit
  split
  · rename_i b y
    constructor
    · intro h; cases h; exact ⟨b, y, rfl, rfl⟩
    · rintro ⟨b', y', h, rfl⟩; cases h; rfl
  · simp
  · simp

/-- Committing an answer. -/
theorem commit_next (s : State) (b : Block NumTerm) (y : Option NumTerm) :
    commit s (.next (b, y)) = .next ((s.setBlock b).setResponse y) := rfl

/-- Committing a refusal. -/
theorem commit_refused (s : State) (e : Refusal) : commit s (.refused e) = .refused e := rfl

/-- Every meaning is the command over number terms, committed. -/
theorem exec_eq_commit (i : Instr) (s : State) :
    exec i s = commit s (command termDomain i s.block s.input.ports) := by
  cases i <;> rfl

/-- Everything a command step can do. -/
theorem exec_next_iff (i : Instr) (s t : State) :
    exec i s = .next t ↔
      ∃ b y, command termDomain i s.block s.input.ports = .next (b, y) ∧ t = (s.setBlock b).setResponse y := by
  rw [exec_eq_commit, commit_next_iff]

/-- Everything `INIT` can do. -/
theorem initCommand_next_iff (A : NumDomain α) (p : Ports α) (x : Block α × Option α) :
    initCommand A p = .next x ↔
      ∃ s0 s1, p.s0 = .finite s0 ∧ p.s1 = .finite s1 ∧ x = (initBlock A s0 s1, none) := by
  unfold initCommand
  constructor
  · intro h
    split at h
    · cases h; exact ⟨_, _, ‹_›, ‹_›, rfl⟩
    · cases h
  · rintro ⟨s0, s1, h0, h1, rfl⟩; rw [h0, h1]

/-- Everything `TICK` can do. -/
theorem tickCommand_next_iff (A : NumDomain α) (b : Block α) (p : Ports α) (x : Block α × Option α) :
    tickCommand A b p = .next x ↔
      b.initDone = true ∧ ∃ f m, p.f = .finite f ∧ p.m = .finite m ∧
        x = (advancePhases A f (modulate A b m).1, some (modulate A b m).2) := by
  unfold tickCommand
  rw [afterInit_next_iff]
  refine and_congr_right fun _ => ⟨fun h => ?_, ?_⟩
  · split at h
    · cases h; exact ⟨_, _, ‹_›, ‹_›, rfl⟩
    · cases h
  · rintro ⟨f, m, hf, hm, rfl⟩; rw [hf, hm]

/-- A reserved opcode under this block's policy changes nothing. -/
theorem reserved_eq_writing (b : Block α) : reservedUnder Config.reservedPolicy b = writing b b := rfl

/-- A committed writing command on an initialised block. -/
theorem commit_writing (s : State) (b : Block NumTerm) (h : s.block.initDone = true) :
    commit s (writing s.block b) = .next { s with block := b, response := none } := by
  rw [writing_ready _ _ h]; rfl

/-- `TICK` on an initialised block with numbers on its ports. -/
theorem exec_tick_ready (s : State) (f m : NumTerm) (h : s.block.initDone = true)
    (hf : s.input.ports.f = .finite f) (hm : s.input.ports.m = .finite m) :
    exec .tick s = .next
      { block := advancePhases termDomain f (modulate termDomain s.block m).1
        input := s.input
        response := some (modulate termDomain s.block m).2
        pending := s.pending } := by
  show execTick _ = _
  unfold execTick tickCommand
  rw [afterInit_ready _ _ h]
  simp only [hf, hm]
  rfl

/-- Every command's answer, in one list: which command, which registers, whether it responds. -/
theorem command_next_cases (A : NumDomain α) (i : Instr) (b b' : Block α) (p : Ports α) (y : Option α)
    (h : command A i b p = .next (b', y)) :
    (i = .init ∧ y = none ∧ ∃ s0 s1, b' = initBlock A s0 s1) ∨
    (b.initDone = true ∧
      ((i = .tick ∧ ∃ f m, b' = advancePhases A f (modulate A b m).1 ∧ y = some (modulate A b m).2) ∨
       (i = .noteOff ∧ y = none ∧
          b' = (b.setOp0 (b.op0.setLast (A.rat 0))).setOp1 (b.op1.setLast (A.rat 0))) ∨
       (∃ v, i = .setWave0 v ∧ y = none ∧ b' = b.setOp0 (b.op0.setWave v)) ∨
       (∃ v, i = .setWave1 v ∧ y = none ∧ b' = b.setOp1 (b.op1.setWave v)) ∨
       (∃ v, i = .setFeedback v ∧ y = none ∧ b' = b.setOp1 (b.op1.setFb (feedbackOf A v))) ∨
       (∃ v, i = .setMode v ∧ y = none ∧ b' = b.setMode v) ∨
       (∃ v, i = .setRatio v ∧ y = none ∧ b' = b.setOp1 (b.op1.setRatio (ratioRom A (ratioIndex v)))) ∨
       (∃ v, i = .setLevel v ∧ y = none ∧ b' = b.setOp1 (b.op1.setLevel (levelOf A v))) ∨
       (i ≠ .init ∧ i ≠ .tick ∧ y = none ∧ b' = b))) := by
  cases i
  case init =>
    obtain ⟨s0, s1, -, -, e⟩ := (initCommand_next_iff A p _).1 h
    cases e
    exact .inl ⟨rfl, rfl, s0, s1, rfl⟩
  case tick =>
    obtain ⟨hi, f, m, -, -, e⟩ := (tickCommand_next_iff A b p _).1 h
    cases e
    exact .inr ⟨hi, .inl ⟨rfl, f, m, rfl, rfl⟩⟩
  all_goals
    obtain ⟨hi, e⟩ := (writing_next_iff b _ _).1 h
    cases e
    refine .inr ⟨hi, .inr ?_⟩
    simp

/-- What the sounding part of a tick writes: the two `last` fields. -/
theorem sound_eq (A : NumDomain α) (b : Block α) (d a1 : α) :
    sound A b d a1 =
      let y1 := modulatorOut A b.op1 d a1
      let y0 := carrierOut A b.op0 (carrierAngle A b.op0 y1)
      ({ b with op0 := b.op0.setLast y0, op1 := b.op1.setLast y1 }, y0) := rfl

/-- The signal chain in FM mode. -/
theorem modulate_fm (A : NumDomain α) (b : Block α) (m : α) (h : b.mode = 0) :
    modulate A b m = sound A b (depth A m) (fmAngle A b.op1) := by
  simp [modulate, modulationOf, h]

/-- The signal chain in PM mode. -/
theorem modulate_pm (A : NumDomain α) (b : Block α) (m : α) (h : b.mode = 1) :
    modulate A b m = sound A b (depth A m) (pmAngle A b.op1) := by
  simp [modulate, modulationOf, h]

/-- The signal chain in an unknown mode. -/
theorem modulate_unknown (A : NumDomain α) (b : Block α) (m : α) (h0 : b.mode ≠ 0) (h1 : b.mode ≠ 1) :
    modulate A b m = (b, A.rat 0) := by
  have hm : modulationOf b.mode = .unknown := by
    unfold modulationOf
    split
    · exact absurd (BitVec.eq_of_toNat_eq (by simpa using ‹b.mode.toNat = 0›)) h0
    · exact absurd (BitVec.eq_of_toNat_eq (by simpa using ‹b.mode.toNat = 1›)) h1
    · rfl
  simp [modulate, hm]

/-- A code is one of the two modes or unknown. -/
theorem mode_cases (c : Code) : c = 0 ∨ c = 1 ∨ (c ≠ 0 ∧ c ≠ 1) := by
  by_cases h0 : c = 0
  · exact .inl h0
  · by_cases h1 : c = 1
    · exact .inr (.inl h1)
    · exact .inr (.inr ⟨h0, h1⟩)

/-- Whatever the mode, the signal chain writes only the two `last` fields. -/
theorem modulate_writes_last (A : NumDomain α) (b : Block α) (m : α) :
    ∃ y0 y1, (modulate A b m).1 = { b with op0 := b.op0.setLast y0, op1 := b.op1.setLast y1 } := by
  rcases mode_cases b.mode with h | h | ⟨h0, h1⟩
  · rw [modulate_fm A b m h]; exact ⟨_, _, rfl⟩
  · rw [modulate_pm A b m h]; exact ⟨_, _, rfl⟩
  · rw [modulate_unknown A b m h0 h1]; exact ⟨b.op0.last, b.op1.last, rfl⟩

/-- What the phase accumulator writes: the two phases. -/
theorem advancePhases_eq (A : NumDomain α) (f : α) (b : Block α) :
    advancePhases A f b = { b with op0 := advancePhase A f b.op0, op1 := advancePhase A f b.op1 } := rfl

/-- Everything a step can do: hold the block, or execute the next command. -/
theorem step_next_cases {s t : State} (h : step s = .next t) :
    (s.pending = [] ∧ t = hold s) ∨
      ∃ next rest, s.pending = next :: rest ∧ exec (decode next.cmd) (present s next rest) = .next t := by
  unfold step at h
  split at h
  · rename_i hp; cases h; exact .inl ⟨hp, rfl⟩
  · rename_i next rest hp; exact .inr ⟨next, rest, hp, h⟩

/-- A step with a command presented. -/
theorem step_command {s : State} {next : Issue NumTerm} {rest : List (Issue NumTerm)} (h : s.pending = next :: rest) :
    step s = exec (decode next.cmd) (present s next rest) := by
  simp [step, h]

/-- Taking one step off a run. -/
theorem core_run_succ (k : Nat) (s : State) :
    Sys2Proof.core.run (k + 1) s =
      match step s with
      | .next t => Sys2Proof.core.run k t
      | .fault e => .fault e
      | .refused e => .refused e := by
  have h := Host.Core.run.eq_2 Sys2Proof.core s k
  have hs : Sys2Proof.core.step s = step s := rfl
  rw [hs] at h
  refine h.trans ?_
  cases step s with
  | next t => rfl
  | fault e => cases e
  | refused e => rfl

@[simp] theorem present_block (s : State) (n : Issue NumTerm) (l : List (Issue NumTerm)) : (present s n l).block = s.block := rfl
@[simp] theorem present_input (s : State) (n : Issue NumTerm) (l : List (Issue NumTerm)) : (present s n l).input = n := rfl
@[simp] theorem present_response (s : State) (n : Issue NumTerm) (l : List (Issue NumTerm)) :
    (present s n l).response = s.response := rfl
@[simp] theorem present_pending (s : State) (n : Issue NumTerm) (l : List (Issue NumTerm)) : (present s n l).pending = l := rfl
@[simp] theorem hold_block (s : State) : (hold s).block = s.block := rfl
@[simp] theorem hold_input (s : State) : (hold s).input = s.input := rfl
@[simp] theorem hold_response (s : State) : (hold s).response = none := rfl
@[simp] theorem hold_pending (s : State) : (hold s).pending = s.pending := rfl

/-- The multiplexer commutes with any reading of terms. -/
theorem eval_gen (I : Interp α) (θ : NumTerm) (c : Code) :
    (gen termDomain θ c).eval I = gen I.domain (θ.eval I) c := by
  unfold gen; split <;> rfl

end Sys2Proof.Machine
end

