-- ==== Sys2Proof/Laws/PerInstr.lean ====
section
/-! SUPPORT. A per-command family: the word an assembler writes for a command is the word of the command's own row of the opcode
table. -/

namespace Sys2Proof.Laws.EncodedWordIsItsRow

/-- Some row of the table has the command's mnemonic and selects the command's word. -/
def Statement (i : Instr) : Prop := ∃ r ∈ opcodeTable, r.mnemonic = i.mnemonic ∧ r.selects (encode i) = true

theorem init : Statement .init := by unfold Statement; decide
theorem tick : Statement .tick := by unfold Statement; decide
theorem noteOn : Statement .noteOn := by unfold Statement; decide
theorem noteOff : Statement .noteOff := by unfold Statement; decide
theorem rsvOpc5 : Statement .rsvOpc5 := by unfold Statement; decide
theorem rsvOpc6 : Statement .rsvOpc6 := by unfold Statement; decide
theorem rsvOpc7 : Statement .rsvOpc7 := by unfold Statement; decide

/-- The masked bits of a parameter word are its class and slot, whatever its value. -/
theorem paramWord_masked (slot : BitVec 3) (v : Code) :
    paramWord slot v &&& 0xFC00#16 = 0x8000#16 ||| (slot.setWidth 16 <<< 10) := by
  ext i hi
  simp only [paramWord, BitVec.getElem_and, BitVec.getElem_or]
  interval_cases i <;> simp

theorem of_paramWord {i : Instr} (slot : BitVec 3) (v : Code) (h : encode i = paramWord slot v) (r : OpcodeRow)
    (hr : r ∈ opcodeTable) (hm : r.mnemonic = i.mnemonic) (hk : r.mask = 0xFC00#16)
    (hp : r.pattern = 0x8000#16 ||| (slot.setWidth 16 <<< 10)) : Statement i :=
  ⟨r, hr, hm, by simp only [OpcodeRow.selects, h, hk, hp, paramWord_masked, beq_self_eq_true]⟩

theorem setWave0 (v : Code) : Statement (.setWave0 v) :=
  of_paramWord 0 v rfl ⟨"SET_WAVE0", 0xFC00, 0x8000⟩ (by decide) rfl rfl (by decide)
theorem setWave1 (v : Code) : Statement (.setWave1 v) :=
  of_paramWord 1 v rfl ⟨"SET_WAVE1", 0xFC00, 0x8400⟩ (by decide) rfl rfl (by decide)
theorem setFeedback (v : Code) : Statement (.setFeedback v) :=
  of_paramWord 2 v rfl ⟨"SET_FEEDBACK", 0xFC00, 0x8800⟩ (by decide) rfl rfl (by decide)
theorem setMode (v : Code) : Statement (.setMode v) :=
  of_paramWord 3 v rfl ⟨"SET_MODE", 0xFC00, 0x8C00⟩ (by decide) rfl rfl (by decide)
theorem paramRsv4 (v : Code) : Statement (.paramRsv4 v) :=
  of_paramWord 4 v rfl ⟨"PARAM_RSV4", 0xFC00, 0x9000⟩ (by decide) rfl rfl (by decide)
theorem paramRsv5 (v : Code) : Statement (.paramRsv5 v) :=
  of_paramWord 5 v rfl ⟨"PARAM_RSV5", 0xFC00, 0x9400⟩ (by decide) rfl rfl (by decide)
theorem setRatio (v : Code) : Statement (.setRatio v) :=
  of_paramWord 6 v rfl ⟨"SET_RATIO", 0xFC00, 0x9800⟩ (by decide) rfl rfl (by decide)
theorem setLevel (v : Code) : Statement (.setLevel v) :=
  of_paramWord 7 v rfl ⟨"SET_LEVEL", 0xFC00, 0x9C00⟩ (by decide) rfl rfl (by decide)

end Sys2Proof.Laws.EncodedWordIsItsRow
end

