-- ==== Sys2Proof/Laws/Values.lean ====
section
/-! SUPPORT. The value in ℝ of each kind of number term, and the reference domain's operations as real arithmetic. -/

namespace Sys2Proof.Machine

variable (E : Env)

@[simp] theorem Env.val_rat (q : ℚ) : E.val (.rat q) = (q : ℝ) := rfl
@[simp] theorem Env.val_pi : E.val .pi = Real.pi := rfl
@[simp] theorem Env.val_sampleRate : E.val .sampleRate = E.params.sr := rfl
@[simp] theorem Env.val_ratioEntry (j : Fin 64) : E.val (.ratioEntry j) = E.params.ratioTable j := rfl
@[simp] theorem Env.val_port (n : Nat) : E.val (.port n) = E.port n := rfl
@[simp] theorem Env.val_draw (n : Nat) : E.val (.draw n) = E.draw n := rfl
@[simp] theorem Env.val_add (a b : NumTerm) : E.val (.add a b) = E.val a + E.val b := rfl
@[simp] theorem Env.val_sub (a b : NumTerm) : E.val (.sub a b) = E.val a - E.val b := rfl
@[simp] theorem Env.val_mul (a b : NumTerm) : E.val (.mul a b) = E.val a * E.val b := rfl
@[simp] theorem Env.val_div (a b : NumTerm) : E.val (.div a b) = E.val a / E.val b := rfl
@[simp] theorem Env.val_frac (a : NumTerm) : E.val (.frac a) = frac (E.val a) := rfl
@[simp] theorem Env.val_sin (θ : NumTerm) : E.val (.sin θ) = E.params.sinImpl (E.val θ) := rfl
@[simp] theorem Env.val_tri (θ : NumTerm) : E.val (.tri θ) = triWave (E.val θ) := rfl
@[simp] theorem Env.val_sqr (θ : NumTerm) : E.val (.sqr θ) = sqrWave (E.val θ) := rfl
@[simp] theorem Env.val_saw (θ : NumTerm) : E.val (.saw θ) = sawWave (E.val θ) := rfl

/-- A generator's term has the generator's value. -/
theorem Env.val_gen (θ : NumTerm) (c : Code) : E.val (gen termDomain θ c) = gen (realDomain E.params) (E.val θ) c :=
  eval_gen E.interp θ c

/-- `2π · x` over terms. -/
theorem Env.val_twoPiTimes (x : NumTerm) : E.val (twoPiTimes termDomain x) = 2 * Real.pi * E.val x := by
  simp [twoPiTimes, termDomain]

/-- The depth over terms. -/
theorem Env.val_depth (m : NumTerm) : E.val (depth termDomain m) = 1 / 2 + 1 / 2 * E.val m := by
  simp [depth, termDomain, Config.kMod]; norm_num

/-- The FM angle over terms. -/
theorem Env.val_fmAngle (o : Operator NumTerm) :
    E.val (fmAngle termDomain o) = 2 * Real.pi * (E.val o.phase + E.val o.fb * E.val o.last) := by
  unfold fmAngle; rw [Env.val_twoPiTimes]; rfl

/-- The PM angle over terms. -/
theorem Env.val_pmAngle (o : Operator NumTerm) :
    E.val (pmAngle termDomain o) = 2 * Real.pi * E.val o.phase + E.val o.fb * E.val o.last := by
  have h := Env.val_twoPiTimes E o.phase
  simp only [pmAngle, termDomain] at *
  simp [h]

/-- The modulator's output over terms. -/
theorem Env.val_modulatorOut (o : Operator NumTerm) (d a1 : NumTerm) :
    E.val (modulatorOut termDomain o d a1) = E.val o.level * E.val d * gen (realDomain E.params) (E.val a1) o.wave := by
  rw [← Env.val_gen]; rfl

/-- The carrier's angle over terms. -/
theorem Env.val_carrierAngle (o : Operator NumTerm) (y1 : NumTerm) :
    E.val (carrierAngle termDomain o y1) = 2 * Real.pi * E.val o.phase + E.val y1 := by
  rw [← Env.val_twoPiTimes]; rfl

/-- The carrier's output over terms. -/
theorem Env.val_carrierOut (o : Operator NumTerm) (a0 : NumTerm) :
    E.val (carrierOut termDomain o a0) = E.val o.level * gen (realDomain E.params) (E.val a0) o.wave := by
  rw [← Env.val_gen]; rfl

/-- An advanced phase over terms. -/
theorem Env.val_advancePhase (f : NumTerm) (o : Operator NumTerm) :
    E.val (advancePhase termDomain f o).phase = frac (E.val o.phase + E.val f * E.val o.ratio / E.params.sr) := rfl

/-- `frac` is the library's fractional part. -/
theorem frac_eq_fract (x : ℝ) : frac x = Int.fract x := rfl

theorem frac_nonneg (x : ℝ) : 0 ≤ frac x := Int.fract_nonneg x

theorem frac_lt_one (x : ℝ) : frac x < 1 := Int.fract_lt_one x

/-- A reduced angle is the fraction of a cycle times `2π`. -/
theorem reduceAngle_eq (θ : ℝ) : reduceAngle θ = 2 * Real.pi * frac (θ / (2 * Real.pi)) := by
  have h : (2 * Real.pi) ≠ 0 := by positivity
  unfold reduceAngle emod frac
  field_simp

/-- The reduced angle, from the whole number of cycles it leaves out. -/
theorem reduceAngle_of_cycles {θ r : ℝ} (n : ℤ) (h : θ = r + n * (2 * Real.pi)) (h0 : 0 ≤ r) (h1 : r < 2 * Real.pi) :
    reduceAngle θ = r := by
  have hp : 0 < 2 * Real.pi := by positivity
  have hf : ⌊θ / (2 * Real.pi)⌋ = n := by
    rw [Int.floor_eq_iff, le_div_iff₀ hp, div_lt_iff₀ hp]
    constructor <;> nlinarith
  rw [reduceAngle, emod, hf, h]; ring

/-- The half-cycle index from the reduced angle. -/
theorem halfCycle_of {θ r : ℝ} (n : ℤ) (h : reduceAngle θ = r) (h0 : n * Real.pi ≤ r) (h1 : r < (n + 1) * Real.pi) :
    halfCycle θ = n := by
  have hp := Real.pi_pos
  rw [halfCycle, h, Int.floor_eq_iff, le_div_iff₀ hp, div_lt_iff₀ hp]
  exact ⟨h0, h1⟩

/-- The quadrant index from the reduced angle. -/
theorem quadrant_of {θ r : ℝ} (n : ℤ) (h : reduceAngle θ = r) (h0 : n * (Real.pi / 2) ≤ r)
    (h1 : r < (n + 1) * (Real.pi / 2)) : quadrant θ = n := by
  have hp : 0 < Real.pi / 2 := by positivity
  rw [quadrant, h, Int.floor_eq_iff, le_div_iff₀ hp, div_lt_iff₀ hp]
  exact ⟨h0, h1⟩

end Sys2Proof.Machine
end

