-- ==== Sys2Proof/Tests/Slice0.lean ====
section
/-! SUPPORT. The model's own tests. Expected results are the spec's (95_test_vectors.md, or the words of the rule named), never the
model's own answers. First the checks and the decoder, then the waveforms, then one step per command, then a witness for each
statement with hypotheses. -/

namespace Sys2Proof.Tests

open Sys2Proof.Machine

/-! The assembler's checks and the host's contract: each refuses an ill-formed term (R83, R84, R85). -/

theorem test_wfValue : wfValue 1023 = true ∧ wfValue 1024 = false := by decide
theorem test_wfSlot : wfSlot 7 = true ∧ wfSlot 8 = false := by decide
theorem test_wfRatioIdx : wfRatioIdx 127 = true ∧ wfRatioIdx 128 = false := by decide
theorem test_wfOperator : wfOperator 1 = true ∧ wfOperator 2 = false := by decide
theorem test_wfPercent : wfPercent 100 = true ∧ wfPercent 101 = false := by decide
theorem test_honoursContract :
    (Instr.setFeedback 101).honoursContract = false ∧ (Instr.setLevel 1023).honoursContract = true := by decide
theorem test_assembler_refuses :
    assemble (.setp 8 0) = .error .slotOutOfRange ∧ assemble (.setLevel 1024) = .error .valueOutOfRange ∧
    assemble (.setRatioIdx 128) = .error .ratioIndexOutOfRange ∧
    assemble (.setWave 2 0) = .error .operatorOutOfRange := by decide
/-- Program P1's control words (95_test_vectors.md). -/
theorem test_assembler_words :
    assembleProgram [.setWave0 2, .setLevel 0, .nop, .pm] =
      .ok [plainIssue 0x8002, plainIssue 0x9C00, plainIssue 0x4000, plainIssue 0x8C01] := by decide

/-! Words written out bit by bit from R72 and their commands (95_test_vectors.md, encoding). -/

theorem test_decode_init : decode 0b000_000_0000000000 = .init ∧ decode 0b000_111_1111111111 = .init := by decide
theorem test_decode_tick : decode 0b001_000_0000000000 = .tick ∧ decode 0b001_110_1010111100 = .tick := by decide
theorem test_decode_noteOn : decode 0b010_000_0000000000 = .noteOn := by decide
theorem test_decode_noteOff : decode 0b011_111_1111111111 = .noteOff := by decide
theorem test_decode_setWave0 : decode 0b100_000_1111111111 = .setWave0 1023 := by decide
theorem test_decode_setWave1 : decode 0b100_001_0000000001 = .setWave1 1 := by decide
theorem test_decode_setFeedback : decode 0b100_010_0000110010 = .setFeedback 50 := by decide
theorem test_decode_setMode : decode 0b100_011_0000000001 = .setMode 1 := by decide
theorem test_decode_paramRsv4 : decode 0b100_100_0000000111 = .paramRsv4 7 := by decide
theorem test_decode_paramRsv5 : decode 0b100_101_0001100100 = .paramRsv5 100 := by decide
theorem test_decode_setRatio : decode 0b100_110_0000001000 = .setRatio 8 := by decide
theorem test_decode_setLevel : decode 0b100_111_1111111111 = .setLevel 1023 := by decide
theorem test_decode_reserved :
    decode 0b101_001_0110100101 = .rsvOpc5 ∧ decode 0b110_000_0000000000 = .rsvOpc6 ∧
    decode 0b111_111_1111111111 = .rsvOpc7 := by decide
theorem test_encode_words :
    encode .tick = 0x2000 ∧ encode (.setFeedback 100) = 0x8864 ∧ encode (.setRatio 1023) = 0x9BFF ∧
    encode .rsvOpc7 = 0xE000 := by decide
theorem test_decodeTableWord :
    decodeTableWord 16 0x9808 = some (.setRatio 8) ∧ decodeTableWord 24 0x2000 = none ∧
    decodeSized 24 0x2000 = .error .longerThanOneWord := by decide

/-! Waveform vectors (95_test_vectors.md, waveforms). -/

theorem reduce_self {θ : ℝ} (h0 : 0 ≤ θ) (h1 : θ < 2 * Real.pi) : reduceAngle θ = θ :=
  reduceAngle_of_cycles 0 (by simp) h0 h1

theorem reduce_zero : reduceAngle 0 = 0 := reduce_self le_rfl (by positivity)

theorem reduce_negative {θ : ℝ} (h0 : -(2 * Real.pi) ≤ θ) (h1 : θ < 0) : reduceAngle θ = θ + 2 * Real.pi :=
  reduceAngle_of_cycles (-1) (by push_cast; ring) (by linarith) (by linarith)

theorem test_sqr_zero : sqrWave 0 = 1 := by
  have h : halfCycle 0 = 0 := halfCycle_of 0 reduce_zero (by simp) (by simp [Real.pi_pos])
  simp [sqrWave, h]

theorem test_sqr_pi : sqrWave Real.pi = -1 := by
  have hp := Real.pi_pos
  have h : halfCycle Real.pi = 1 := halfCycle_of 1 (reduce_self hp.le (by linarith)) (by simp) (by push_cast; linarith)
  simp [sqrWave, h]

theorem test_saw_three_half_pi : sawWave (3 * Real.pi / 2) = -1 / 2 := by
  have hp := Real.pi_pos
  have hr := reduce_self (θ := 3 * Real.pi / 2) (by positivity) (by linarith)
  have h : halfCycle (3 * Real.pi / 2) = 1 := halfCycle_of 1 hr (by push_cast; linarith) (by push_cast; linarith)
  simp only [sawWave, h, hr, one_ne_zero, if_false]
  field_simp; push_cast; ring

/-- A negative angle: `SAW(-0.5) = -(1 - 1/(2π))` (R106). -/
theorem test_saw_negative : sawWave (-(1 / 2)) = -(1 - 1 / (2 * Real.pi)) := by
  have hp := Real.pi_gt_three
  have hr := reduce_negative (θ := -(1 / 2)) (by linarith) (by norm_num)
  have h : halfCycle (-(1 / 2)) = 1 := halfCycle_of 1 hr (by push_cast; linarith) (by push_cast; linarith)
  simp only [sawWave, h, hr, one_ne_zero, if_false]
  field_simp; push_cast; ring

theorem test_tri_five_quarter_pi : triWave (5 * Real.pi / 4) = -1 / 2 := by
  have hp := Real.pi_pos
  have hr := reduce_self (θ := 5 * Real.pi / 4) (by positivity) (by linarith)
  have h : quadrant (5 * Real.pi / 4) = 2 := quadrant_of 2 hr (by push_cast; linarith) (by push_cast; linarith)
  simp only [triWave, h, hr]
  norm_num
  field_simp; norm_num

/-- A negative angle: `TRI(-0.5) = -1/π` (R107). -/
theorem test_tri_negative : triWave (-(1 / 2)) = -(1 / Real.pi) := by
  have hp := Real.pi_gt_three
  have hr := reduce_negative (θ := -(1 / 2)) (by linarith) (by norm_num)
  have h : quadrant (-(1 / 2)) = 3 := quadrant_of 3 hr (by push_cast; linarith) (by push_cast; linarith)
  simp only [triWave, h, hr]
  norm_num
  field_simp; ring

/-- `TRI(π/2 + 0.5) = 1 - 1/π`: the response of V-T1. -/
theorem test_tri_second_quadrant : triWave (Real.pi / 2 + 1 / 2) = 1 - 1 / Real.pi := by
  have hp := Real.pi_gt_three
  have hr := reduce_self (θ := Real.pi / 2 + 1 / 2) (by linarith) (by linarith)
  have h : quadrant (Real.pi / 2 + 1 / 2) = 1 := quadrant_of 1 hr (by push_cast; linarith) (by push_cast; linarith)
  simp only [triWave, h, hr]
  norm_num
  field_simp

/-! A small environment: the reference sine, `SR` = 44000, a ROM with its two known entries. -/

/-- A ratio ROM that R52 allows. -/
noncomputable def testTable (i : Fin 64) : ℝ := if i = 0 then 1 / 2 else if i = 1 then 71 / 100 else 26

/-- The vectors' parameters (95_test_vectors.md). -/
noncomputable def testParams : Config.Params :=
  { Config.referenceConstants testTable rfl (by simp [testTable]) with sr := 44000, sr_pos := by norm_num }

/-- An environment: every port 0, every draw 0. -/
noncomputable def testEnv : Env where
  params := testParams
  port := fun _ => 0
  draw := fun _ => 0
  draw_nonneg := fun _ => le_rfl
  draw_lt_one := fun _ => zero_lt_one

theorem test_reference_sine : testParams.sinImpl (Real.pi / 6) = 1 / 2 := Real.sin_pi_div_six

/-! One step per command. -/

/-- Ports with rational operands. -/
def testPorts (f m s0 s1 : ℚ) : Ports NumTerm :=
  { f := .finite (.rat f), m := .finite (.rat m), s0 := .finite (.rat s0), s1 := .finite (.rat s1) }

/-- The state a test starts from: the reset registers with changes, and a command presented. -/
def testState (b : Block NumTerm) (p : Ports NumTerm) : State :=
  { State.reset with block := b, input := { cmd := 0, ports := p } }

/-- The registers of an outcome, for a test on one field. -/
def outBlock : Host.Outcome State Fault Refusal → Option (Block NumTerm)
  | .next t => some t.block
  | _ => none

/-- The response of an outcome. -/
def outResponse : Host.Outcome State Fault Refusal → Option NumTerm
  | .next t => t.response
  | _ => none

/-- The refusal of an outcome. -/
def outRefusal : Host.Outcome State Fault Refusal → Option Refusal
  | .refused r => some r
  | _ => none

/-- The start of V-T1: FM, Triangle carrier, Square modulator, `φ0 = 0.25`, `φ1 = 0`. -/
def startVT1 : State :=
  testState
    { State.reset.block with
      op0 := { State.reset.block.op0 with wave := 1, phase := .rat (1 / 4) }
      op1 := { State.reset.block.op1 with wave := 2, phase := .rat 0 } }
    (testPorts 440 0 0 0)

/-- V-T1: the response is `TRI(π/2 + 0.5) = 1 - 1/π` and the carrier's phase 0.26. -/
theorem test_tick_fm : ∃ t y, exec .tick startVT1 = .next t ∧ t.response = some y ∧
    testEnv.val y = 1 - 1 / Real.pi ∧ testEnv.val t.block.op0.phase = 26 / 100 := by
  refine ⟨_, _, exec_tick_ready startVT1 (.rat 440) (.rat 0) rfl rfl rfl, rfl, ?_, ?_⟩
  · rw [modulate_fm _ _ _ rfl, sound_eq]
    dsimp only
    rw [Env.val_carrierOut, Env.val_carrierAngle, Env.val_modulatorOut, Env.val_depth, Env.val_fmAngle]
    show testEnv.val (.rat 1) * triWave (2 * Real.pi * ((1 / 4 : ℚ) : ℝ) + testEnv.val (.rat 1) * (1 / 2 + 1 / 2 * ((0 : ℚ) : ℝ)) *
      sqrWave (2 * Real.pi * (((0 : ℚ) : ℝ) + testEnv.val (.rat 0) * testEnv.val (.rat 0)))) = _
    simp only [Env.val_rat]
    have e : (2 * Real.pi * ((0 : ℚ) + ((0 : ℚ) : ℝ) * ((0 : ℚ) : ℝ)) : ℝ) = 0 := by push_cast; ring
    rw [e, test_sqr_zero, ← test_tri_second_quadrant]
    push_cast
    rw [one_mul]; congr 1; ring
  · rw [modulate_fm _ _ _ rfl]
    show frac (((1 / 4 : ℚ) : ℝ) + ((440 : ℚ) : ℝ) * ((1 : ℚ) : ℝ) / 44000) = _
    rw [frac_eq_fract, Int.fract_eq_iff]
    exact ⟨by norm_num, by norm_num, 0, by norm_num⟩

/-- V-T9: PM with `fb = 1`, `L1 = -0.5`: the modulator's angle is -0.5 and its output `-1/π`. -/
theorem test_tick_pm : ∃ t, exec .tick (testState
      { State.reset.block with
        op0 := { State.reset.block.op0 with wave := 2, phase := .rat 0 }
        op1 := { State.reset.block.op1 with wave := 1, phase := .rat 0, fb := .rat 1, last := .rat (-1 / 2) }
        mode := 1 }
      (testPorts 440 1 0 0)) = .next t ∧ testEnv.val t.block.op1.last = -(1 / Real.pi) := by
  refine ⟨_, exec_tick_ready _ (.rat 440) (.rat 1) rfl rfl rfl, ?_⟩
  rw [modulate_pm _ _ _ rfl, sound_eq]
  refine (Env.val_modulatorOut _ _ _ _).trans ?_
  rw [Env.val_depth, Env.val_pmAngle]
  show testEnv.val (.rat 1) * (1 / 2 + 1 / 2 * ((1 : ℚ) : ℝ)) *
    triWave (2 * Real.pi * ((0 : ℚ) : ℝ) + ((1 : ℚ) : ℝ) * ((-1 / 2 : ℚ) : ℝ)) = _
  have e : (2 * Real.pi * ((0 : ℚ) : ℝ) + ((1 : ℚ) : ℝ) * ((-1 / 2 : ℚ) : ℝ)) = -(1 / 2) := by push_cast; ring
  rw [e, test_tri_negative, Env.val_rat]; push_cast; ring

/-- V-I2: a seed outside the contract is wrapped: `INIT s0=1.25` gives the phase 0.25. -/
theorem test_init : ∃ b, outBlock (exec .init (testState State.reset.block (testPorts 0 0 (5 / 4) (1 / 2)))) = some b ∧
    testEnv.val b.op0.phase = 1 / 4 ∧ b.mode = 0 := by
  refine ⟨_, rfl, ?_, rfl⟩
  show frac (((5 / 4 : ℚ) : ℝ)) = _
  rw [frac_eq_fract, Int.fract_eq_iff]
  exact ⟨by norm_num, by norm_num, 1, by norm_num⟩

/-- V-N2. -/
theorem test_noteOn : outBlock (exec .noteOn startVT1) = some startVT1.block := rfl

/-- V-N1: both last outputs are zeroed and the phase kept. -/
theorem test_noteOff : (outBlock (exec .noteOff startVT1)).map (fun b => (b.op0.last, b.op1.last, b.op0.phase)) =
    some (.rat 0, .rat 0, .rat (1 / 4)) := rfl

/-- V-P1. -/
theorem test_setWave0 : (outBlock (exec (.setWave0 2) State.reset)).map (fun b => b.op0.wave) = some 2 := by decide

/-- V-P2. -/
theorem test_setWave1 : (outBlock (exec (.setWave1 1023) State.reset)).map (fun b => b.op1.wave) = some 1023 := by decide

/-- V-P4 and V-P5: 101 is clamped to 1, and 1 is 0.01. -/
theorem test_setFeedback : ∃ b c, outBlock (exec (.setFeedback 101) State.reset) = some b ∧
    outBlock (exec (.setFeedback 1) State.reset) = some c ∧ testEnv.val b.op1.fb = 1 ∧ testEnv.val c.op1.fb = 1 / 100 := by
  refine ⟨_, _, rfl, rfl, ?_, ?_⟩
  · show (((min 101 100 : ℕ) / (100 : ℕ) : ℚ) : ℝ) = _
    norm_num
  · show (((min 1 100 : ℕ) / (100 : ℕ) : ℚ) : ℝ) = _
    norm_num

/-- V-P7. -/
theorem test_setMode : (outBlock (exec (.setMode 100) State.reset)).map (fun b => b.mode) = some 100 := by decide

/-- V-P8. -/
theorem test_paramRsv4 : outBlock (exec (.paramRsv4 55) startVT1) = some startVT1.block := rfl
theorem test_paramRsv5 : outBlock (exec (.paramRsv5 0) startVT1) = some startVT1.block := rfl

/-- V-P9 to V-P12: indices 0, 1, 62, 63 and 63. -/
theorem test_setRatio : ratioIndex 7 = 0 ∧ ratioIndex 15 = 1 ∧ ratioIndex 503 = 62 ∧ ratioIndex 504 = 63 ∧
    ratioIndex 1023 = 63 := by decide
theorem test_setRatio_register :
    (outBlock (exec (.setRatio 8) State.reset)).map (fun b => b.op1.ratio) = some (.ratioEntry 1) := by decide

/-- V-P14. -/
theorem test_setLevel : ∃ b, outBlock (exec (.setLevel 511) State.reset) = some b ∧ testEnv.val b.op1.level = 511 / 1023 := by
  refine ⟨_, rfl, ?_⟩
  show (((511 : ℕ) / (1023 : ℕ) : ℚ) : ℝ) = _
  norm_num

/-- V-X1. -/
theorem test_rsvOpc5 : outBlock (exec .rsvOpc5 startVT1) = some startVT1.block := rfl
theorem test_rsvOpc6 : outBlock (exec .rsvOpc6 startVT1) = some startVT1.block := rfl
theorem test_rsvOpc7 : outBlock (exec .rsvOpc7 startVT1) = some startVT1.block := rfl
/-- V-X2: the other policy refuses. -/
theorem test_reserved_refuse : reservedUnder .refuse State.reset.block = .refused .reserved := rfl

/-- A host's program at power-on, whatever the registers hold (V-R1, V-R2, V-I1). -/
theorem test_power_on (b : Block NumTerm) :
    outRefusal (step (State.powerOn b [tickIssue (.finite (.rat 440)) (.finite (.rat 0))])) = some .preInit ∧
    outRefusal (step (State.powerOn b [plainIssue 0x8C01])) = some .preInit ∧
    (outBlock (step (State.powerOn b [initIssue (.finite (.rat (3 / 10))) (.finite (.rat 0))]))).map
      (fun b => b.initDone) = some true := by
  refine ⟨?_, ?_, ?_⟩ <;> rfl

/-- The first command after reset runs, with the word placed for it. -/
theorem test_first_step :
    (outBlock (step (State.reset.withFetchWord 16 0x8C05))).map (fun b => b.mode) = some 5 ∧
    (outResponse (step (State.reset.withFetchWord 16 0x2000))).isSome = true := by decide

/-! Witnesses: for each statement with hypotheses, a concrete case that meets them. -/

theorem witness_EncodeOfDecodeIsTheWord : opcField 0x83FF = 4 ∧ opcField 0x9FFF = 4 ∧ opcField 0x7FFF ≠ 4 ∧
    opcField 0xA000 ≠ 4 := by decide

theorem witness_LowBitsIgnoredOutsideParam :
    (opcField 0x3ABC ≠ 4 ∧ opcField 0x2000 = opcField 0x3ABC) ∧ opcField (encode .tick) ≠ 4 := by decide

/-- A machine with one command still to come. -/
def oneTickPending : State := issue State.reset [tickIssue (.finite (.rat 440)) (.finite (.rat 0))]

theorem witness_StepRunsTheDecodedCommand :
    oneTickPending.pending = tickIssue (.finite (.rat 440)) (.finite (.rat 0)) :: [] ∧ State.reset.pending = [] :=
  ⟨rfl, rfl⟩

theorem witness_SetpAssemblesToItsSlotsCommand : ((7 : Fin 8).val = 7 ∧ 1023 ≤ 1023) ∧ 7 < 8 ∧ (7 ≤ 7 ∧ 1023 < 1024) := by decide

theorem witness_RatioIndexLineSelectsItsEntry : 0 ≤ 127 ∧ 63 ≤ 127 ∧ 64 ≤ 127 ∧ 127 ≤ 127 := by decide

theorem witness_InitWritesEveryRegister :
    startVT1.input.ports.s0 = .finite (.rat 0) ∧ startVT1.input.ports.s1 = .finite (.rat 0) ∧
    0 ≤ testEnv.val (.rat 0) ∧ testEnv.val (.rat 0) < 1 := by
  refine ⟨rfl, rfl, ?_, ?_⟩ <;> simp

/-- An initialised block, for every statement whose hypothesis is that alone: `NoteOnChangesNothing`,
`NoteOffZeroesBothLastOutputs`, `ReservedSlotsChangeNothing`, `SetLevelStoresTheLinearLevel`. -/
theorem witness_NoteOnChangesNothing :
    startVT1.block.initDone = true ∧ (State.powerOn startVT1.block []).block.initDone = false := ⟨rfl, rfl⟩
theorem witness_NoteOffZeroesBothLastOutputs :
    startVT1.block.initDone = true ∧ (State.powerOn startVT1.block []).block.initDone = false := ⟨rfl, rfl⟩
theorem witness_ReservedSlotsChangeNothing : startVT1.block.initDone = true := rfl
theorem witness_SetLevelStoresTheLinearLevel : startVT1.block.initDone = true := rfl

/-- The same block in PM mode. -/
def startPm : State := testState { startVT1.block with mode := 1 } (testPorts 440 0 0 0)

/-- The same block in the first unknown mode. -/
def startUnknown : State := testState { startVT1.block with mode := 2 } (testPorts 440 0 0 0)

theorem witness_SetWave0StoresTheCarrierCode :
    startVT1.block.initDone = true ∧ 3 < (4 : Code).toNat ∧ startVT1.block.mode = 0 ∧ startPm.block.mode = 1 ∧
    startVT1.input.ports.f = .finite (.rat 440) ∧ startVT1.input.ports.m = .finite (.rat 0) :=
  ⟨rfl, by decide, rfl, rfl, rfl, rfl⟩

theorem witness_SetWave1StoresTheModulatorCode :
    startPm.block.initDone = true ∧ 3 < (4 : Code).toNat ∧ startVT1.block.mode = 0 ∧ startPm.block.mode = 1 ∧
    startPm.input.ports.f = .finite (.rat 440) ∧ startPm.input.ports.m = .finite (.rat 0) :=
  ⟨rfl, by decide, rfl, rfl, rfl, rfl⟩

theorem witness_SetFeedbackStoresTheClampedCoefficient :
    startVT1.block.initDone = true ∧ (100 : Code).toNat ≤ 100 ∧ 100 < (101 : Code).toNat := ⟨rfl, by decide, by decide⟩

theorem witness_SetModeStoresTheModeCode :
    startVT1.block.initDone = true ∧ 1 < (2 : Code).toNat ∧
    startVT1.input.ports.f = .finite (.rat 440) ∧ startVT1.input.ports.m = .finite (.rat 0) := ⟨rfl, by decide, rfl, rfl⟩

theorem witness_SetRatioStoresTheRomEntry :
    startVT1.block.initDone = true ∧ (63 : Fin 64).val = min ((1023 : Code).toNat >>> 3) 63 ∧ (7 : Code).toNat < 8 ∧
    (8 ≤ (8 : Code).toNat ∧ (15 : Code).toNat < 16) ∧ 504 ≤ (504 : Code).toNat := ⟨rfl, by decide⟩

theorem witness_SettersAreIdempotent :
    (Instr.noteOff ≠ .init ∧ Instr.noteOff ≠ .tick) ∧
    exec .noteOff State.reset = .next { State.reset with response := none } := ⟨by decide, rfl⟩

theorem witness_ReservedOpcodesAreNoOps :
    State.reset.block.initDone = true ∧ (State.powerOn State.reset.block []).block.initDone = false := ⟨rfl, rfl⟩

theorem witness_CommandsBeforeInitAreRefused :
    Instr.tick ≠ .init ∧ (State.powerOn State.reset.block []).block.initDone = false := ⟨by decide, rfl⟩

theorem witness_NonFiniteOperandsAreRefused :
    (testState State.reset.block { Ports.zero with f := .nonFinite, s1 := .nonFinite }).block.initDone = true ∧
    (testState State.reset.block { Ports.zero with f := .nonFinite, s1 := .nonFinite }).input.ports.f = .nonFinite ∧
    (testState State.reset.block { Ports.zero with f := .nonFinite, s1 := .nonFinite }).input.ports.s1 = .nonFinite :=
  ⟨rfl, rfl, rfl⟩

theorem witness_ElaborationTakesPositiveRates :
    (Operand.finite (44000 : ℝ)) = .finite 44000 ∧ (0 : ℝ) < 44000 ∧ ¬ (0 : ℝ) < 0 := ⟨rfl, by norm_num, lt_irrefl 0⟩

theorem witness_TickInFmOrPmMode :
    (startVT1.block.initDone = true ∧ startVT1.block.mode = 0 ∧ startVT1.input.ports.f = .finite (.rat 440) ∧
      startVT1.input.ports.m = .finite (.rat 0)) ∧
    (startPm.block.initDone = true ∧ startPm.block.mode = 1 ∧ startPm.input.ports.f = .finite (.rat 440) ∧
      startPm.input.ports.m = .finite (.rat 0)) := ⟨⟨rfl, rfl, rfl, rfl⟩, ⟨rfl, rfl, rfl, rfl⟩⟩

theorem witness_TickInUnknownModeIsSilent :
    startUnknown.block.initDone = true ∧ startUnknown.block.mode ≠ 0 ∧ startUnknown.block.mode ≠ 1 ∧
    startUnknown.input.ports.f = .finite (.rat 440) ∧ startUnknown.input.ports.m = .finite (.rat 0) :=
  ⟨rfl, by decide, by decide, rfl, rfl⟩

theorem witness_TickAdvancesBothPhases :
    startUnknown.block.initDone = true ∧ startUnknown.input.ports.f = .finite (.rat 440) ∧
    startUnknown.input.ports.m = .finite (.rat 0) := ⟨rfl, rfl, rfl⟩

/-- A sound state: reset's registers are the R33 values. -/
theorem soundStart : ∀ mode : Code, (testState { State.reset.block with mode := mode } (testPorts 440 1 0 0)).Inv testEnv := by
  intro mode _
  constructor <;>
    simp [State.regs, testState, State.reset, Operator.reset, PhaseInRange, CoefficientInRange, frac_nonneg, frac_lt_one]

theorem witness_TickResponseWithinUnit :
    (testState { State.reset.block with mode := 1 } (testPorts 440 1 0 0)).Inv testEnv ∧
    (testState { State.reset.block with mode := 2 } (testPorts 440 1 0 0)).Inv testEnv ∧
    (testState State.reset.block (testPorts 440 1 0 0)).block.initDone = true ∧
    (testPorts 440 1 0 0).f = .finite (.rat 440) ∧ (testPorts 440 1 0 0).m = .finite (.rat 1) ∧
    |testEnv.val (.rat 1)| ≤ 1 := by
  refine ⟨soundStart 1, soundStart 2, rfl, rfl, rfl, ?_⟩
  simp

theorem witness_FmAndPmDifferOnlyByFeedback :
    startVT1.block.initDone = true ∧ startVT1.block.mode = 0 ∧ startVT1.input.ports.f = .finite (.rat 440) ∧
    startVT1.input.ports.m = .finite (.rat 0) ∧
    testEnv.val startVT1.block.op1.fb * testEnv.val startVT1.block.op1.last = 0 :=
  ⟨rfl, rfl, rfl, rfl, mul_eq_zero_of_left (by simp [startVT1, testState, State.reset, Operator.reset]) _⟩

/-- One completed command for each statement about what a command leaves alone. -/
theorem witness_CarrierConstantsWrittenOnlyByInit :
    Instr.noteOn ≠ .init ∧ exec .noteOn startVT1 = .next { startVT1 with response := none } := ⟨by decide, rfl⟩
theorem witness_PhasesWrittenOnlyByInitAndTick :
    (Instr.noteOff ≠ .init ∧ Instr.noteOff ≠ .tick) ∧
    exec .noteOff State.reset = .next { State.reset with response := none } := ⟨by decide, rfl⟩
theorem witness_LastOutputsWrittenOnlyByThree :
    (Instr.noteOn ≠ .init ∧ Instr.noteOn ≠ .tick ∧ Instr.noteOn ≠ .noteOff) ∧
    exec .noteOn startVT1 = .next { startVT1 with response := none } := ⟨by decide, rfl⟩
theorem witness_ParametersWrittenOnlyByTheirCommand :
    Instr.setMode 0 ≠ .init ∧ (∀ v, Instr.setMode 0 ≠ .setWave0 v) ∧
    exec (.setMode 0) State.reset = .next { State.reset with response := none } :=
  ⟨by decide, fun v h => (by cases h), rfl⟩
theorem witness_InitDoneIsSetByInitAndKept :
    (outBlock (exec .init (State.powerOn State.reset.block []))).map (fun b => b.initDone) = some true ∧
    (State.powerOn State.reset.block []).block.initDone = false := ⟨rfl, rfl⟩
theorem witness_SampleValidExactlyOnTick :
    exec .noteOn startVT1 = .next { startVT1 with response := none } ∧
    (outResponse (exec .tick startVT1)).isSome = true := ⟨rfl, rfl⟩
theorem witness_UnusedPortsHaveNoEffect :
    (testPorts 440 0 1 1).f = startVT1.input.ports.f ∧ (testPorts 440 0 1 1).m = startVT1.input.ports.m ∧
    (testPorts 7 7 0 0).s0 = startVT1.input.ports.s0 ∧ (testPorts 7 7 0 0).s1 = startVT1.input.ports.s1 :=
  ⟨rfl, rfl, rfl, rfl⟩
theorem witness_MultiplexerSelectsByCode : 3 < (4 : Code).toNat ∧ 3 < (1023 : Code).toNat := by decide

/-- Fractions of a cycle in each quadrant: 0, 1/4, 1/2 and 3/4. -/
theorem witness_WaveformsInCycleForm :
    ⌊4 * (0 : ℝ)⌋ = 0 ∧ ⌊4 * (1 / 4 : ℝ)⌋ = 1 ∧ ⌊4 * (1 / 2 : ℝ)⌋ = 2 ∧ ⌊4 * (3 / 4 : ℝ)⌋ = 3 ∧
    frac (0 / (2 * Real.pi)) = 0 ∧ frac ((Real.pi / 2) / (2 * Real.pi)) = 1 / 4 ∧
    frac (Real.pi / (2 * Real.pi)) = 1 / 2 ∧ frac ((3 * Real.pi / 2) / (2 * Real.pi)) = 3 / 4 := by
  have hp := Real.pi_ne_zero
  have e1 : (Real.pi / 2) / (2 * Real.pi) = 1 / 4 := by field_simp; norm_num
  have e2 : Real.pi / (2 * Real.pi) = 1 / 2 := by field_simp
  have e3 : (3 * Real.pi / 2) / (2 * Real.pi) = 3 / 4 := by field_simp; norm_num
  rw [e1, e2, e3]
  simp only [frac_eq_fract, Int.fract_eq_iff, Int.floor_eq_iff]
  exact ⟨by norm_num, by norm_num, by norm_num, by norm_num, ⟨by norm_num, by norm_num, 0, by norm_num⟩,
    ⟨by norm_num, by norm_num, 0, by norm_num⟩, ⟨by norm_num, by norm_num, 0, by norm_num⟩,
    ⟨by norm_num, by norm_num, 0, by norm_num⟩⟩

theorem witness_StepKeepsTheInvariant :
    ∃ t, State.Inv testEnv oneTickPending ∧ step oneTickPending = .next t ∧ oneTickPending.block.initDone = true ∧
      t.response.isSome = true := ⟨_, soundStart 0, rfl, rfl, rfl⟩

theorem witness_RunsRespondWithinUnit :
    ∃ t, State.Inv testEnv oneTickPending ∧ Sys2Proof.core.run 1 oneTickPending = .next t ∧ t.response.isSome = true :=
  ⟨_, soundStart 0, rfl, rfl⟩

theorem witness_FiniteOperandsNeverStop :
    oneTickPending.block.initDone = true ∧ oneTickPending.pendingFinite = true := ⟨rfl, rfl⟩

theorem witness_PhaseAfterManyTicks :
    oneTickPending.block.initDone = true ∧ PhaseInRange (testEnv.val oneTickPending.block.op0.phase) ∧
    PhaseInRange (testEnv.val oneTickPending.block.op1.phase) ∧
    oneTickPending.pending =
      [NumTerm.rat 0].map (fun m => tickIssue (.finite (.rat 440)) (.finite m)) ++ [] :=
  ⟨rfl, ⟨frac_nonneg _, frac_lt_one _⟩, ⟨frac_nonneg _, frac_lt_one _⟩, rfl⟩

theorem witness_RunsFromInitAreDetermined :
    decode (initIssue (.finite (.rat 0)) (.finite (.rat 0))).cmd = .init ∧
    (State.powerOn State.reset.block [initIssue (.finite (.rat 0)) (.finite (.rat 0))]).pending =
      initIssue (.finite (.rat 0)) (.finite (.rat 0)) :: [] ∧
    (State.powerOn startVT1.block [initIssue (.finite (.rat 0)) (.finite (.rat 0))]).pending =
      initIssue (.finite (.rat 0)) (.finite (.rat 0)) :: [] := ⟨by decide, rfl, rfl⟩

/-- Two terms for one number: 1 and 1 + 0 as the carrier's ratio. -/
theorem witness_EqualValuesRunAlike :
    State.view testEnv.interp State.reset =
      State.view testEnv.interp
        { State.reset with block := { State.reset.block with
            op0 := { State.reset.block.op0 with ratio := .add (.rat 1) (.rat 0) } } } := by
  have h : testEnv.val (.rat 1) = testEnv.val (.add (.rat 1) (.rat 0)) := by simp
  unfold State.view Block.map Operator.map
  exact congrArg (fun r => View.mk (Block.mk true (Operator.mk 0 r _ _ _ _) _ _) _ _ _) h

end Sys2Proof.Tests
end

section
/-! The machine over number terms is the block of every number domain (R6, R8). Reading a term in a domain is a homomorphism from the
machine's arithmetic: it goes through each register write, each formula and each command's answer, hence through a step and a
run. -/

namespace Sys2Proof.Machine

section Reading

variable {α β γ : Type}

/-! Reading a register file through a function, after a write of a tick. -/

@[simp] theorem Operator.map_setLast (g : α → β) (o : Operator α) (x : α) :
    (o.setLast x).map g = (o.map g).setLast (g x) := rfl
@[simp] theorem Block.map_setOp0 (g : α → β) (b : Block α) (o : Operator α) :
    (b.setOp0 o).map g = (b.map g).setOp0 (o.map g) := rfl
@[simp] theorem Block.map_setOp1 (g : α → β) (b : Block α) (o : Operator α) :
    (b.setOp1 o).map g = (b.map g).setOp1 (o.map g) := rfl

/-! Reading the next state of an outcome. -/

@[simp] theorem mapNext_next (g : α → β) (x : α) : mapNext g (.next x) = .next (g x) := rfl

theorem mapNext_mapNext (h : β → γ) (g : α → β) (r : Host.Outcome α Fault Refusal) :
    mapNext h (mapNext g r) = mapNext (fun x => h (g x)) r := by
  cases r <;> rfl

theorem commit_eq_mapNext (s : State) (r : CmdResult NumTerm) :
    commit s r = mapNext (fun a => (s.setBlock a.1).setResponse a.2) r := by
  cases r <;> rfl

/-- A command's answer with every number replaced by its value. -/
def CmdResult.map (g : α → β) (r : CmdResult α) : CmdResult β :=
  mapNext (fun a => (a.1.map g, a.2.map g)) r

@[simp] theorem CmdResult.map_next (g : α → β) (b : Block α) (y : Option α) :
    CmdResult.map g (.next (b, y)) = .next (b.map g, y.map g) := rfl
@[simp] theorem CmdResult.map_refused (g : α → β) (e : Refusal) :
    CmdResult.map g (.refused e : CmdResult α) = .refused e := rfl

/-- The gate on `init_done` reads no number. -/
theorem CmdResult.map_afterInit (g : α → β) (b : Block α) (r : CmdResult α) :
    (afterInit b r).map g = afterInit (b.map g) (r.map g) := by
  cases h : b.initDone with
  | false => rw [afterInit_preInit b r h, afterInit_preInit (b.map g) _ h, map_refused]
  | true => rw [afterInit_ready b r h, afterInit_ready (b.map g) _ h]

theorem CmdResult.map_writing (g : α → β) (b b' : Block α) :
    (writing b b').map g = writing (b.map g) (b'.map g) :=
  map_afterInit g b _

end Reading

section Homomorphism

variable {α : Type} (I : Interp α)

/-! The formulas of a tick, read in a domain. -/

theorem eval_depth (m : NumTerm) : (depth termDomain m).eval I = depth I.domain (m.eval I) := rfl

theorem eval_fmAngle (o : Operator NumTerm) :
    (fmAngle termDomain o).eval I = fmAngle I.domain (o.map (NumTerm.eval I)) := rfl

theorem eval_pmAngle (o : Operator NumTerm) :
    (pmAngle termDomain o).eval I = pmAngle I.domain (o.map (NumTerm.eval I)) := rfl

theorem eval_carrierAngle (o : Operator NumTerm) (y1 : NumTerm) :
    (carrierAngle termDomain o y1).eval I = carrierAngle I.domain (o.map (NumTerm.eval I)) (y1.eval I) := rfl

theorem eval_modulatorOut (o : Operator NumTerm) (d a1 : NumTerm) :
    (modulatorOut termDomain o d a1).eval I =
      modulatorOut I.domain (o.map (NumTerm.eval I)) (d.eval I) (a1.eval I) := by
  simp only [modulatorOut, Operator.map_level, Operator.map_wave, ← eval_gen]
  rfl

theorem eval_carrierOut (o : Operator NumTerm) (a0 : NumTerm) :
    (carrierOut termDomain o a0).eval I = carrierOut I.domain (o.map (NumTerm.eval I)) (a0.eval I) := by
  simp only [carrierOut, Operator.map_level, Operator.map_wave, ← eval_gen]
  rfl

theorem map_sound (b : Block NumTerm) (d a1 : NumTerm) :
    Prod.map (Block.map (NumTerm.eval I)) (NumTerm.eval I) (sound termDomain b d a1) =
      sound I.domain (b.map (NumTerm.eval I)) (d.eval I) (a1.eval I) := by
  simp only [sound, Prod.map_apply, Block.map_setOp0, Block.map_setOp1, Operator.map_setLast, eval_carrierOut,
    eval_carrierAngle, eval_modulatorOut, Block.setOp1_op0, Block.map_op0, Block.map_op1]

/-- The signal chain commutes with reading, in FM, in PM and in an unknown mode. -/
theorem map_modulate (b : Block NumTerm) (m : NumTerm) :
    Prod.map (Block.map (NumTerm.eval I)) (NumTerm.eval I) (modulate termDomain b m) =
      modulate I.domain (b.map (NumTerm.eval I)) (m.eval I) := by
  rcases mode_cases b.mode with h | h | ⟨h0, h1⟩
  · rw [modulate_fm _ b m h, modulate_fm _ (b.map (NumTerm.eval I)) _ h, map_sound, eval_depth, eval_fmAngle, Block.map_op1]
  · rw [modulate_pm _ b m h, modulate_pm _ (b.map (NumTerm.eval I)) _ h, map_sound, eval_depth, eval_pmAngle, Block.map_op1]
  · rw [modulate_unknown _ b m h0 h1, modulate_unknown _ (b.map (NumTerm.eval I)) _ h0 h1]
    rfl

theorem map_advancePhases (f : NumTerm) (b : Block NumTerm) :
    (advancePhases termDomain f b).map (NumTerm.eval I) =
      advancePhases I.domain (f.eval I) (b.map (NumTerm.eval I)) := rfl

theorem map_initBlock (s0 s1 : NumTerm) :
    (initBlock termDomain s0 s1).map (NumTerm.eval I) = initBlock I.domain (s0.eval I) (s1.eval I) := rfl

/-! The two commands that read ports, then every command. -/

theorem map_initCommand (p : Ports NumTerm) :
    (initCommand termDomain p).map (NumTerm.eval I) = initCommand I.domain (p.map (NumTerm.eval I)) := by
  obtain ⟨f, m, s0, s1⟩ := p
  cases s0 with
  | nonFinite => rfl
  | finite s0 =>
    cases s1 with
    | nonFinite => rfl
    | finite s1 =>
      simp only [initCommand, Ports.map_s0, Ports.map_s1, Operand.map_finite, CmdResult.map_next, map_initBlock, Option.map_none]

theorem map_tickCommand (b : Block NumTerm) (p : Ports NumTerm) :
    (tickCommand termDomain b p).map (NumTerm.eval I) =
      tickCommand I.domain (b.map (NumTerm.eval I)) (p.map (NumTerm.eval I)) := by
  unfold tickCommand
  rw [CmdResult.map_afterInit]
  congr 1
  obtain ⟨f, m, s0, s1⟩ := p
  cases f with
  | nonFinite => rfl
  | finite f =>
    cases m with
    | nonFinite => rfl
    | finite m =>
      simp only [Ports.map_f, Ports.map_m, Operand.map_finite, CmdResult.map_next, map_advancePhases, Option.map_some,
        ← map_modulate, Prod.map_fst, Prod.map_snd]

/-- Every command's answer over terms, read in a domain, is its answer computed in that domain. A command
that reads no port only writes registers, and reading a record update is by definition the update with what is read. -/
theorem map_command (i : Instr) (b : Block NumTerm) (p : Ports NumTerm) :
    (command termDomain i b p).map (NumTerm.eval I) =
      command I.domain i (b.map (NumTerm.eval I)) (p.map (NumTerm.eval I)) := by
  cases i with
  | init => exact map_initCommand I p
  | tick => exact map_tickCommand I b p
  | _ => exact CmdResult.map_writing _ b _

/-! A step and a run. -/

theorem view_hold (s : State) : (hold s).view I = { s.view I with response := none } := rfl

/-- The commuting diagram of one step: read then step in the domain, or step over terms then read. -/
theorem view_step (s : State) : mapNext (State.view I) (step s) = stepIn I.domain (s.view I) := by
  cases h : s.pending with
  | nil =>
    have hv : (s.view I).pending = [] := by simp [State.view, h]
    simp only [step, stepIn, h, hv, mapNext_next, view_hold]
  | cons next rest =>
    have hv : (s.view I).pending = next.map (NumTerm.eval I) :: rest.map (Issue.map (NumTerm.eval I)) := by
      simp [State.view, h]
    rw [step_command h, exec_eq_commit, commit_eq_mapNext, mapNext_mapNext]
    simp only [stepIn, hv, Issue.map_cmd, Issue.map_ports]
    have hb : (s.view I).block = s.block.map (NumTerm.eval I) := rfl
    rw [hb, ← map_command, CmdResult.map, mapNext_mapNext]
    rfl

theorem view_run (k : Nat) (s : State) :
    mapNext (State.view I) (Sys2Proof.core.run k s) = runIn I.domain k (s.view I) := by
  induction k generalizing s with
  | zero => rfl
  | succ k ih =>
    rw [core_run_succ, runIn, ← view_step]
    cases step s with
    | next t => exact ih t
    | fault e => rfl
    | refused e => rfl

end Homomorphism

/-- Settles O52: reading goes through one step, hence by induction on the length through a run. -/
theorem runRefinesEveryNumberDomain : Obligations.RunRefinesEveryNumberDomain :=
  fun _ I s k => view_run I k s

end Sys2Proof.Machine
end

section
/-! Which registers each command writes (R21 to R29), in any number domain, and what follows of every command that answers: its
frame, `init_done`, and the invariants of R31. -/

namespace Sys2Proof.Machine

variable {α : Type}

/-! The register files a command can leave. -/

/-- The registers an answering command leaves, from the registers `b`: one constructor for each command that writes any, and one
for the commands that write none. Of the numbers a tick writes it keeps only that a phase is a fraction. -/
inductive RegsAfter (A : NumDomain α) (b : Block α) : Instr → Block α → Prop where
  | init (s0 s1 : α) : RegsAfter A b .init (initBlock A s0 s1)
  | tick (x0 x1 y0 y1 : α) : RegsAfter A b .tick
      ((b.setOp0 ((b.op0.setLast y0).setPhase (A.frac x0))).setOp1 ((b.op1.setLast y1).setPhase (A.frac x1)))
  | noteOff : RegsAfter A b .noteOff ((b.setOp0 (b.op0.setLast (A.rat 0))).setOp1 (b.op1.setLast (A.rat 0)))
  | setWave0 (v : Code) : RegsAfter A b (.setWave0 v) (b.setOp0 (b.op0.setWave v))
  | setWave1 (v : Code) : RegsAfter A b (.setWave1 v) (b.setOp1 (b.op1.setWave v))
  | setFeedback (v : Code) : RegsAfter A b (.setFeedback v) (b.setOp1 (b.op1.setFb (feedbackOf A v)))
  | setMode (v : Code) : RegsAfter A b (.setMode v) (b.setMode v)
  | setRatio (v : Code) : RegsAfter A b (.setRatio v) (b.setOp1 (b.op1.setRatio (ratioRom A (ratioIndex v))))
  | setLevel (v : Code) : RegsAfter A b (.setLevel v) (b.setOp1 (b.op1.setLevel (levelOf A v)))
  | unchanged (i : Instr) (hi : i ≠ .init) : RegsAfter A b i b

/-- In every mode a tick writes the last outputs and the phases, each phase a fraction. -/
theorem regsAfter_advancePhases_modulate (A : NumDomain α) (b : Block α) (f m : α) :
    RegsAfter A b .tick (advancePhases A f (modulate A b m).1) := by
  obtain ⟨y0, y1, hlast⟩ := modulate_writes_last A b m
  rw [hlast]
  exact .tick _ _ y0 y1

theorem command_regsAfter {A : NumDomain α} {i : Instr} {b b' : Block α} {p : Ports α} {y : Option α}
    (h : command A i b p = .next (b', y)) : RegsAfter A b i b' := by
  rcases command_next_cases A i b b' p y h with ⟨rfl, -, s0, s1, rfl⟩ | ⟨-, hwrite⟩
  · exact .init s0 s1
  · rcases hwrite with ⟨rfl, f, m, rfl, -⟩ | ⟨rfl, -, rfl⟩ | ⟨v, rfl, -, rfl⟩ | ⟨v, rfl, -, rfl⟩ | ⟨v, rfl, -, rfl⟩ |
      ⟨v, rfl, -, rfl⟩ | ⟨v, rfl, -, rfl⟩ | ⟨v, rfl, -, rfl⟩ | ⟨hi, -, -, rfl⟩
    · exact regsAfter_advancePhases_modulate A b f m
    · exact .noteOff
    · exact .setWave0 v
    · exact .setWave1 v
    · exact .setFeedback v
    · exact .setMode v
    · exact .setRatio v
    · exact .setLevel v
    · exact .unchanged i hi

theorem exec_regsAfter {i : Instr} {s t : State} (h : exec i s = .next t) :
    RegsAfter termDomain s.block i t.block := by
  obtain ⟨b, y, hc, rfl⟩ := (exec_next_iff i s t).1 h
  exact command_regsAfter hc

/-! `init_done` (R29). -/

/-- A command answers before the first `INIT` only if it is that `INIT`. -/
theorem command_next_init_or_initDone {A : NumDomain α} {i : Instr} {b b' : Block α} {p : Ports α} {y : Option α}
    (h : command A i b p = .next (b', y)) : i = .init ∨ b.initDone = true := by
  rcases command_next_cases A i b b' p y h with ⟨hi, -⟩ | ⟨hd, -⟩
  · exact .inl hi
  · exact .inr hd

/-- `INIT` writes true to `init_done`, and no other command writes it. -/
theorem RegsAfter.initDone {A : NumDomain α} {i : Instr} {b b' : Block α} (h : RegsAfter A b i b')
    (hd : i = .init ∨ b.initDone = true) : b'.initDone = true := by
  cases h with
  | init => rfl
  | unchanged _ hi => exact hd.resolve_left hi
  | _ => exact hd.resolve_left nofun

theorem command_sets_initDone {A : NumDomain α} {i : Instr} {b b' : Block α} {p : Ports α} {y : Option α}
    (h : command A i b p = .next (b', y)) : b'.initDone = true :=
  (command_regsAfter h).initDone (command_next_init_or_initDone h)

/-- Settles O35: a command answers only if it is `INIT` or finds `init_done` true, and none clears it. -/
theorem initDoneIsSetByInitAndKept : Obligations.InitDoneIsSetByInitAndKept := by
  intro i s t h
  obtain ⟨b, y, hc, rfl⟩ := (exec_next_iff i s t).1 h
  refine ⟨command_sets_initDone hc, fun hfalse => ?_⟩
  exact (command_next_init_or_initDone hc).resolve_right (by simp [hfalse])

/-! The invariants of R31, over ℝ. -/

section Invariant

variable (P : Config.Params)

/-- A quotient of naturals that is at most one is a coefficient in range. -/
theorem coefficientInRange_div {n d : ℕ} (h : n ≤ d) : CoefficientInRange (((n : ℚ) / (d : ℚ) : ℚ) : ℝ) := by
  have hle : (n : ℚ) ≤ d := by exact_mod_cast h
  have h0 : (0 : ℚ) ≤ n / d := by positivity
  have h1 : (n : ℚ) / d ≤ 1 := div_le_one_of_le₀ hle (Nat.cast_nonneg d)
  exact ⟨by exact_mod_cast h0, by exact_mod_cast h1⟩

/-- The clamp keeps the feedback coefficient in range (R166). -/
theorem feedbackOf_inRange (v : Code) : CoefficientInRange (feedbackOf (realDomain P) v) :=
  coefficientInRange_div (Nat.min_le_right v.toNat Config.fbMax)

/-- Ten bits keep the level in range (R171). -/
theorem levelOf_inRange (v : Code) : CoefficientInRange (levelOf (realDomain P) v) :=
  coefficientInRange_div (Nat.le_of_lt_succ v.isLt)

theorem frac_phaseInRange (x : ℝ) : PhaseInRange (frac x) := ⟨frac_nonneg x, frac_lt_one x⟩

/-- The registers that `INIT` leaves meet the invariants, whatever the seeds (R31, R33). -/
theorem initBlock_regsInv (s0 s1 : ℝ) : RegsInv P (initBlock (realDomain P) s0 s1) where
  phase0 := frac_phaseInRange s0
  phase1 := frac_phaseInRange s1
  carrier_ratio := Rat.cast_one
  carrier_level := Rat.cast_one
  carrier_fb := Rat.cast_zero
  fb1 := ⟨Rat.cast_zero.ge, by simp [initBlock, Operator.reset, realDomain]⟩
  level1 := ⟨by simp [initBlock, Operator.reset, realDomain], Rat.cast_one.le⟩
  ratio1 := .inl Rat.cast_one

/-- Every command's writes keep the invariants: a phase is written as a fraction, a coefficient in its range, a ratio from the
ratio ROM, and the carrier's constants by `INIT` alone. -/
theorem RegsAfter.regsInv {P : Config.Params} {i : Instr} {b b' : Block ℝ} (h : RegsAfter (realDomain P) b i b')
    (hb : i ≠ .init → RegsInv P b) : RegsInv P b' := by
  cases h with
  | init s0 s1 => exact initBlock_regsInv P s0 s1
  | tick x0 x1 => exact { hb nofun with phase0 := frac_phaseInRange x0, phase1 := frac_phaseInRange x1 }
  | setFeedback v => exact { hb nofun with fb1 := feedbackOf_inRange P v }
  | setRatio v => exact { hb nofun with ratio1 := .inr ⟨ratioIndex v, rfl⟩ }
  | setLevel v => exact { hb nofun with level1 := levelOf_inRange P v }
  | unchanged _ hi => exact hb hi
  | _ => exact { hb nofun with }

/-- In the reference block every command that answers keeps the invariants, and `INIT` establishes them. -/
theorem command_keeps_regsInv {P : Config.Params} {i : Instr} {b b' : Block ℝ} {p : Ports ℝ} {y : Option ℝ}
    (h : command (realDomain P) i b p = .next (b', y)) (hb : b.initDone = true → RegsInv P b) : RegsInv P b' :=
  (command_regsAfter h).regsInv fun hi => hb ((command_next_init_or_initDone h).resolve_left hi)

end Invariant

/-- A command's answer over terms is, in values, the reference block's answer. -/
theorem command_regs (E : Env) {i : Instr} {b b' : Block NumTerm} {p : Ports NumTerm} {y : Option NumTerm}
    (h : command termDomain i b p = .next (b', y)) :
    command (realDomain E.params) i (b.map E.val) (p.map E.val) = .next (b'.map E.val, y.map E.val) := by
  have hmap := map_command E.interp i b p
  rw [h, CmdResult.map_next] at hmap
  exact hmap.symm

/-- Every command that answers keeps the machine's invariant. -/
theorem exec_keeps_inv {E : Env} {i : Instr} {s t : State} (hs : s.Inv E) (h : exec i s = .next t) : t.Inv E := by
  obtain ⟨b, y, hc, rfl⟩ := (exec_next_iff i s t).1 h
  exact fun _ => command_keeps_regsInv (command_regs E hc) hs

/-- Settles O46: a step holds the block, or it executes a command on it, which keeps the invariant and leaves `init_done` true. -/
theorem stepKeepsTheInvariant : Obligations.StepKeepsTheInvariant := by
  intro E s t hs h
  rcases step_next_cases h with ⟨-, rfl⟩ | ⟨next, rest, -, hexec⟩
  · exact ⟨hs, id⟩
  · have hpresent : (present s next rest).Inv E := hs
    exact ⟨exec_keeps_inv hpresent hexec, fun _ => (initDoneIsSetByInitAndKept _ _ t hexec).1⟩

/-- Settles O45: in values, reset leaves the registers that `INIT` leaves when its seeds are the two draws. -/
theorem resetIsSound : Obligations.ResetIsSound :=
  fun E => ⟨rfl, fun _ => initBlock_regsInv E.params (E.draw 0) (E.draw 1)⟩

/-! The frame of every command (R22 to R28). -/

section Frame

variable {A : NumDomain α} {i : Instr} {b b' : Block α}

theorem RegsAfter.carrier_constants (h : RegsAfter A b i b') (hinit : i ≠ .init) :
    b'.op0.ratio = b.op0.ratio ∧ b'.op0.level = b.op0.level ∧ b'.op0.fb = b.op0.fb := by
  cases h with
  | init => exact absurd rfl hinit
  | _ => exact ⟨rfl, rfl, rfl⟩

theorem RegsAfter.phases (h : RegsAfter A b i b') (hinit : i ≠ .init) (htick : i ≠ .tick) :
    b'.op0.phase = b.op0.phase ∧ b'.op1.phase = b.op1.phase := by
  cases h with
  | init => exact absurd rfl hinit
  | tick => exact absurd rfl htick
  | _ => exact ⟨rfl, rfl⟩

theorem RegsAfter.lasts (h : RegsAfter A b i b') (hinit : i ≠ .init) (htick : i ≠ .tick) (hnoteOff : i ≠ .noteOff) :
    b'.op0.last = b.op0.last ∧ b'.op1.last = b.op1.last := by
  cases h with
  | init => exact absurd rfl hinit
  | tick => exact absurd rfl htick
  | noteOff => exact absurd rfl hnoteOff
  | _ => exact ⟨rfl, rfl⟩

/-- A register's own command is excluded by its clause's premise, and every other command but `INIT` leaves the register. -/
theorem RegsAfter.parameters (h : RegsAfter A b i b') (hinit : i ≠ .init) :
    ((∀ v, i ≠ .setWave0 v) → b'.op0.wave = b.op0.wave) ∧
    ((∀ v, i ≠ .setWave1 v) → b'.op1.wave = b.op1.wave) ∧
    ((∀ v, i ≠ .setFeedback v) → b'.op1.fb = b.op1.fb) ∧
    ((∀ v, i ≠ .setMode v) → b'.mode = b.mode) ∧
    ((∀ v, i ≠ .setRatio v) → b'.op1.ratio = b.op1.ratio) ∧
    ((∀ v, i ≠ .setLevel v) → b'.op1.level = b.op1.level) := by
  cases h with
  | init => exact absurd rfl hinit
  | _ => simp

end Frame

/-- Settles O31: of the registers a command can leave, only `INIT`'s change these. -/
theorem carrierConstantsWrittenOnlyByInit : Obligations.CarrierConstantsWrittenOnlyByInit :=
  fun _ _ _ hinit h => (exec_regsAfter h).carrier_constants hinit

/-- Settles O32: of the registers a command can leave, only those of `INIT` and `TICK` change a phase. -/
theorem phasesWrittenOnlyByInitAndTick : Obligations.PhasesWrittenOnlyByInitAndTick :=
  fun _ _ _ hinit htick h => (exec_regsAfter h).phases hinit htick

/-- Settles O33: of the registers a command can leave, only those of `INIT`, `TICK` and `NOTE_OFF` change a last output. -/
theorem lastOutputsWrittenOnlyByThree : Obligations.LastOutputsWrittenOnlyByThree :=
  fun _ _ _ hinit htick hnoteOff h => (exec_regsAfter h).lasts hinit htick hnoteOff

/-- Settles O34: of the registers a command can leave, only those of `INIT` and of its own command change a parameter. -/
theorem parametersWrittenOnlyByTheirCommand : Obligations.ParametersWrittenOnlyByTheirCommand :=
  fun _ _ _ hinit h => (exec_regsAfter h).parameters hinit

end Sys2Proof.Machine
end

section
/-! A step runs the command presented to it (R57, R71), and a command other than `INIT` and `TICK` answers its own result unchanged
(R58). -/

namespace Sys2Proof.Machine

variable {α : Type}

/-! One step. -/

/-- With no command presented the block holds its state (R213). -/
theorem step_of_pending_nil {s : State} (h : s.pending = []) : step s = .next (hold s) := by
  simp [step, h]

/-- Settles O6: the two cases of a step. -/
theorem stepRunsTheDecodedCommand : Obligations.StepRunsTheDecodedCommand :=
  ⟨fun _ _ _ hpresented => step_command hpresented, fun _ hnone => step_of_pending_nil hnone⟩

/-! Idempotent commands. -/

/-- A command other than `INIT` and `TICK` is one write `w` to the registers. The values it puts there come from the command word
alone, so a second write finds them in place (R58). -/
theorem command_eq_idempotent_write (A : NumDomain α) {i : Instr} (hinit : i ≠ .init) (htick : i ≠ .tick) :
    ∃ w : Block α → Block α, (∀ b p, command A i b p = writing b (w b)) ∧
      (∀ b, (w b).initDone = b.initDone) ∧ ∀ b, w (w b) = w b := by
  cases i with
  | init => exact absurd rfl hinit
  | tick => exact absurd rfl htick
  | _ => exact ⟨_, fun _ _ => rfl, fun _ => rfl, fun _ => rfl⟩

/-- In any number domain the command's answer to its own result is that result: `init_done` still lets it through. -/
theorem command_answers_its_result {A : NumDomain α} {i : Instr} {b b' : Block α} {p : Ports α} {y : Option α}
    (hinit : i ≠ .init) (htick : i ≠ .tick) (h : command A i b p = .next (b', y)) :
    command A i b' p = .next (b', y) := by
  obtain ⟨w, hcommand, hkeep, hagain⟩ := command_eq_idempotent_write A hinit htick
  rw [hcommand] at h ⊢
  obtain ⟨hready, hanswer⟩ := (writing_next_iff b (w b) _).1 h
  obtain ⟨rfl, rfl⟩ := Prod.mk.inj hanswer
  rw [hagain]
  exact writing_ready _ _ ((hkeep b).trans hready)

/-- Settles O21: the same command finds the registers it left and the same ports. -/
theorem settersAreIdempotent : Obligations.SettersAreIdempotent := by
  intro i s t hinit htick h
  obtain ⟨b, y, hcommand, rfl⟩ := (exec_next_iff i s t).1 h
  exact (exec_next_iff i _ _).2 ⟨b, y, command_answers_its_result hinit htick hcommand, rfl⟩

end Sys2Proof.Machine
end

section
/-! The layout of a command word (R72): a word is its three fields side by side. What the decoder, the encoder, the opcode table and
the assembler make of a word is read off its fields. -/

namespace Sys2Proof

/-! Fields and words. -/

/-- The word whose fields are `opc`, `slot` and `v` (R72). -/
def ofFields (opc slot : BitVec 3) (v : Code) : Word :=
  classWord opc ||| (slot.setWidth 16 <<< 10) ||| v.setWidth 16

theorem paramWord_eq_ofFields (slot : BitVec 3) (v : Code) : paramWord slot v = ofFields 4 slot v := rfl

theorem classWord_eq_ofFields (opc : BitVec 3) : classWord opc = ofFields opc 0 0 := by
  simp [ofFields]

@[simp] theorem opcField_ofFields (opc slot : BitVec 3) (v : Code) : opcField (ofFields opc slot v) = opc := by
  ext i hi
  simp only [opcField, ofFields, classWord]
  interval_cases i <;> simp

@[simp] theorem slotField_ofFields (opc slot : BitVec 3) (v : Code) : slotField (ofFields opc slot v) = slot := by
  ext i hi
  simp only [slotField, ofFields, classWord]
  interval_cases i <;> simp

@[simp] theorem valField_ofFields (opc slot : BitVec 3) (v : Code) : valField (ofFields opc slot v) = v := by
  ext i hi
  simp only [valField, ofFields, classWord]
  interval_cases i <;> simp

/-- The three fields leave no bit of a word out. -/
theorem ofFields_fields (w : Word) : ofFields (opcField w) (slotField w) (valField w) = w := by
  ext i hi
  simp only [opcField, slotField, valField, ofFields, classWord]
  interval_cases i <;> simp

theorem ofFields_and_classMask (opc slot : BitVec 3) (v : Code) : ofFields opc slot v &&& 0xE000#16 = classWord opc := by
  ext i hi
  simp only [ofFields, classWord, BitVec.getElem_and, BitVec.getElem_or]
  interval_cases i <;> simp

theorem ofFields_and_slotMask (opc slot : BitVec 3) (v : Code) :
    ofFields opc slot v &&& 0xFC00#16 = ofFields opc slot 0 := by
  ext i hi
  simp only [ofFields, classWord, BitVec.getElem_and, BitVec.getElem_or]
  interval_cases i <;> simp

/-! Decoding and encoding by fields. -/

theorem decode_ofFields (opc slot : BitVec 3) (v : Code) :
    decode (ofFields opc slot v) = decodeClass opc.toFin slot.toFin v := by
  simp only [decode, opcField_ofFields, slotField_ofFields, valField_ofFields]

theorem decode_paramWord (slot : BitVec 3) (v : Code) : decode (paramWord slot v) = decodeSlot slot.toFin v := by
  rw [paramWord_eq_ofFields]
  exact decode_ofFields 4 slot v

theorem decode_classWord (opc : BitVec 3) : decode (classWord opc) = decodeClass opc.toFin 0 0 := by
  rw [classWord_eq_ofFields]
  exact decode_ofFields opc 0 0

theorem encode_decodeSlot (slot : BitVec 3) (v : Code) : encode (decodeSlot slot.toFin v) = paramWord slot v := by
  obtain ⟨slot⟩ := slot
  fin_cases slot <;> rfl

/-- A command of a class other than `PARAM` is its class alone (R76). -/
theorem decodeClass_of_ne_param {opc : BitVec 3} (h : opc ≠ 4) (slot slot' : Fin 8) (v v' : Code) :
    decodeClass opc.toFin slot v = decodeClass opc.toFin slot' v' := by
  obtain ⟨opc⟩ := opc
  match opc, h with
  | 4, hparam => exact absurd rfl hparam
  | 0, _ | 1, _ | 2, _ | 3, _ | 5, _ | 6, _ | 7, _ => rfl

theorem encode_decodeClass_of_ne_param {opc : BitVec 3} (h : opc ≠ 4) (slot : Fin 8) (v : Code) :
    encode (decodeClass opc.toFin slot v) = classWord opc := by
  obtain ⟨opc⟩ := opc
  match opc, h with
  | 4, hparam => exact absurd rfl hparam
  | 0, _ | 1, _ | 2, _ | 3, _ | 5, _ | 6, _ | 7, _ => rfl

/-- Settles O1: an assembled word's fields are the class, the slot and the value it was written from. -/
theorem decodeOfEncodeIsTheCommand : Obligations.DecodeOfEncodeIsTheCommand := by
  intro i
  cases i with
  | setWave0 v | setWave1 v | setFeedback v | setMode v | paramRsv4 v | paramRsv5 v | setRatio v | setLevel v =>
    exact decode_paramWord _ v
  | init | tick | noteOn | noteOff | rsvOpc5 | rsvOpc6 | rsvOpc7 => exact decode_classWord _

/-- Settles O2: the word is written out from its fields, of which a class other than `PARAM` keeps only `OPC`. -/
theorem encodeOfDecodeIsTheWord : Obligations.EncodeOfDecodeIsTheWord := by
  intro w
  rw [← ofFields_fields w, opcField_ofFields, decode_ofFields, ofFields_and_classMask]
  constructor
  · intro hparam
    rw [hparam, ← paramWord_eq_ofFields]
    exact encode_decodeSlot (slotField w) (valField w)
  · exact fun hclass => encode_decodeClass_of_ne_param hclass _ _

/-- Settles O4: the decoder reads only `OPC` there; and an assembled word is the encoding of its own decoding, which keeps none of
the low bits. -/
theorem lowBitsIgnoredOutsideParam : Obligations.LowBitsIgnoredOutsideParam := by
  refine ⟨fun w w' hclass hsame => ?_, fun i hclass => ?_⟩
  · rw [decode, decode, hsame]
    exact decodeClass_of_ne_param hclass _ _ _ _
  · have hcleared : encode i = encode i &&& 0xE000#16 := by
      simpa only [decodeOfEncodeIsTheCommand i] using (encodeOfDecodeIsTheWord (encode i)).2 hclass
    rw [hcleared, BitVec.and_assoc]
    exact BitVec.and_zero

/-- Settles O5: each word is written out from its class, slot and value; outside `PARAM` the ignored bits are written as slot
and value too. -/
theorem writtenOutWordsDecode : Obligations.WrittenOutWordsDecode :=
  ⟨decode_ofFields 0 7 1023, decode_ofFields 1 6 0x2BC, decode_ofFields 2 0 0, decode_ofFields 3 7 1023,
   decode_ofFields 4 0 1023, decode_ofFields 4 1 1, decode_ofFields 4 2 50, decode_ofFields 4 3 1,
   decode_ofFields 4 4 7, decode_ofFields 4 5 100, decode_ofFields 4 6 8, decode_ofFields 4 7 1023,
   decode_ofFields 5 1 0x1A5, decode_ofFields 6 0 0, decode_ofFields 7 7 1023⟩

/-! The opcode table. -/

/-- No row looks at a bit of `VAL`. -/
theorem row_mask_skips_val : ∀ r ∈ opcodeTable, 0xFC00#16 &&& r.mask = r.mask := by decide

theorem selects_ofFields_eq_selects_val_zero {r : OpcodeRow} (hr : r ∈ opcodeTable) (opc slot : BitVec 3) (v : Code) :
    r.selects (ofFields opc slot v) = r.selects (ofFields opc slot 0) := by
  rw [OpcodeRow.selects, OpcodeRow.selects, ← ofFields_and_slotMask opc slot v, BitVec.and_assoc, row_mask_skips_val r hr]

/-- A command's mnemonic does not depend on its value. -/
theorem mnemonic_decodeClass (opc slot : Fin 8) (v : Code) :
    (decodeClass opc slot v).mnemonic = (decodeClass opc slot 0).mnemonic := by
  match opc with
  | 4 => fin_cases slot <;> rfl
  | 0 | 1 | 2 | 3 | 5 | 6 | 7 => rfl

/-- The table's row for each of the 64 values of `OPC` and `SLOT`. -/
theorem mnemonics_selected_by_head : ∀ opc slot : BitVec 3,
    (opcodeTable.filter fun r => r.selects (ofFields opc slot 0)).map OpcodeRow.mnemonic =
      [(decodeClass opc.toFin slot.toFin 0).mnemonic] := by decide

/-- Settles O3: neither the rows nor the mnemonic look at `VAL`, so 64 words stand for all. -/
theorem everyWordSelectsExactlyOneRow : Obligations.EveryWordSelectsExactlyOneRow := by
  intro w
  rw [← List.map_eq_singleton_iff, ← ofFields_fields w, decode_ofFields, mnemonic_decodeClass,
    List.filter_congr fun r hr => selects_ofFields_eq_selects_val_zero hr _ _ _]
  exact mnemonics_selected_by_head _ _

end Sys2Proof

/-! The assembler's lines (R83, R84) and the fetch of a placed word. -/

namespace Sys2Proof.Machine

theorem assembleSetp_of_le {slot v : Nat} (hslot : slot ≤ 7) (hv : v ≤ 1023) :
    assembleSetp slot v = .ok [plainIssue (paramWord (BitVec.ofNat 3 slot) (BitVec.ofNat 10 v))] := by
  simp [assembleSetp, wfSlot, wfValue, hslot, hv]

theorem assembleSetp_slot_refused {slot : Nat} (hslot : 7 < slot) (v : Nat) :
    assembleSetp slot v = .error .slotOutOfRange := by
  simp [assembleSetp, wfSlot, hslot]

theorem assembleSetp_value_refused {slot v : Nat} (hslot : slot ≤ 7) (hv : 1023 < v) :
    assembleSetp slot v = .error .valueOutOfRange := by
  simp [assembleSetp, wfSlot, wfValue, hslot, hv]

/-- The word of R83 as a number. -/
theorem paramWord_ofNat (slot : Fin 8) {v : Nat} (hv : v ≤ 1023) :
    paramWord (BitVec.ofNat 3 slot) (BitVec.ofNat 10 v) = BitVec.ofNat 16 (0x8000 ||| slot.val <<< 10 ||| v) := by
  have hslot : (BitVec.ofNat 3 slot).setWidth 16 <<< 10 = BitVec.ofNat 16 (slot.val <<< 10) := by
    revert slot; decide
  rw [paramWord, hslot, BitVec.setWidth_ofNat_of_le_of_lt (by decide) (Nat.lt_succ_of_le hv), BitVec.ofNat_or,
    BitVec.ofNat_or]

/-- Settles O8: the assembled word is `paramWord` of the line's numbers, which fit their fields. -/
theorem setpAssemblesToItsSlotsCommand : Obligations.SetpAssemblesToItsSlotsCommand := by
  refine ⟨fun slot v hv => ?_, fun _ v hslot => assembleSetp_slot_refused hslot v,
    fun _ _ hslot hv => assembleSetp_value_refused hslot hv⟩
  refine ⟨_, assembleSetp_of_le (Nat.le_of_lt_succ slot.isLt) hv, paramWord_ofNat slot hv, ?_⟩
  have hfits : (BitVec.ofNat 3 slot.val).toFin = slot := Fin.ofNat_val_eq_self slot
  rw [plainIssue, decode_paramWord, hfits]

/-- A ratio index shifted into place comes back, clamped to the ROM (R53, R170). -/
theorem ratioIndex_shiftLeft {j : Nat} (hj : j ≤ 127) : (ratioIndex (BitVec.ofNat 10 (j <<< 3))).val = min j 63 := by
  have hfits : j <<< 3 < 1024 := by rw [Nat.shiftLeft_eq]; omega
  simp [ratioIndex, Config.ratioShift, Config.ratioIdxMax, Nat.mod_eq_of_lt hfits]

theorem assemble_setRatioIdx {j : Nat} (hj : j ≤ 127) :
    assemble (.setRatioIdx j) = .ok [plainIssue (encode (.setRatio (BitVec.ofNat 10 (j <<< 3))))] := by
  have hline : assemble (.setRatioIdx j) = assembleSetp 6 (j <<< 3) := if_pos (decide_eq_true hj)
  rw [hline]
  exact assembleSetp_of_le (by decide) (by rw [Nat.shiftLeft_eq]; omega)

/-- Settles O10: the line is `SETP 6, j << 3`, whose value fits its field. -/
theorem ratioIndexLineSelectsItsEntry : Obligations.RatioIndexLineSelectsItsEntry :=
  fun _ hj => ⟨_, _, assemble_setRatioIdx hj, decodeOfEncodeIsTheCommand _, ratioIndex_shiftLeft hj⟩

/-- Settles O9: `BLOCK` repeats one `TICK` line's presentation. -/
theorem blockIsRepeatedTick : Obligations.BlockIsRepeatedTick :=
  fun _ f m => ⟨tickIssue f m, rfl, decodeOfEncodeIsTheCommand .tick, rfl, rfl⟩

theorem withFetchWord_eq_setPending (s : State) (w : Word) :
    s.withFetchWord 16 w.toNat = s.setPending ({ nextIssue s with cmd := w } :: s.pending.tail) := by
  have hword : BitVec.ofNat 16 (w.toNat % 2 ^ 16) = w := by
    rw [Nat.mod_eq_of_lt w.isLt, BitVec.ofNat_toNat, BitVec.setWidth_eq]
  rw [State.withFetchWord, placeWord, hword]

/-- Settles O7: the placed word stands first in the host's list, with the operands that stood there. -/
theorem stepRunsThePlacedWord : Obligations.StepRunsThePlacedWord := by
  intro s w
  rw [withFetchWord_eq_setPending]
  rw [step_command (State.setPending_pending s _)]
  rfl

end Sys2Proof.Machine
end

section
/-! The ports of R71: when `sample_valid` is 1, and which operand ports a command reads. -/

namespace Sys2Proof.Machine

variable {α : Type}

theorem command_responds_iff {A : NumDomain α} {i : Instr} {b b' : Block α} {p : Ports α} {y : Option α}
    (h : command A i b p = .next (b', y)) : y.isSome = true ↔ i = .tick := by
  cases i with
  | init =>
    obtain ⟨_, _, -, -, hanswer⟩ := (initCommand_next_iff A p _).1 h
    cases hanswer
    simp
  | tick =>
    obtain ⟨-, _, _, -, -, hanswer⟩ := (tickCommand_next_iff A b p _).1 h
    cases hanswer
    simp
  | _ =>
    obtain ⟨-, hanswer⟩ := (writing_next_iff b _ _).1 h
    cases hanswer
    simp

/-- Settles O36: the port shows whether the committed answer has a sample. -/
theorem sampleValidExactlyOnTick : Obligations.SampleValidExactlyOnTick := by
  intro i s t h
  obtain ⟨b, y, hcommand, rfl⟩ := (exec_next_iff i s t).1 h
  exact command_responds_iff hcommand

/-- A command's answer depends on the ports only through those it reads: `f` and `m` for `TICK`, `s0` and `s1` for `INIT` (R78). -/
theorem command_congr_ports (A : NumDomain α) (i : Instr) (b : Block α) {p q : Ports α}
    (htick : i = .tick → p.f = q.f ∧ p.m = q.m) (hinit : i = .init → p.s0 = q.s0 ∧ p.s1 = q.s1) :
    command A i b p = command A i b q := by
  obtain ⟨f, m, s0, s1⟩ := p
  cases i with
  | tick =>
    obtain ⟨rfl, rfl⟩ := htick rfl
    rfl
  | init =>
    obtain ⟨rfl, rfl⟩ := hinit rfl
    rfl
  | _ => rfl

/-- An answer is handed over the same way whatever is presented, and the presentation stays. -/
theorem commit_setInput (s : State) (p : Issue NumTerm) (r : CmdResult NumTerm) :
    commit (s.setInput p) r = mapNext (fun t => t.setInput p) (commit s r) := by
  rw [commit_eq_mapNext, commit_eq_mapNext, mapNext_mapNext]
  rfl

/-- Settles O37: the command answers the same from the other ports, and the answer is committed under the new presentation. -/
theorem unusedPortsHaveNoEffect : Obligations.UnusedPortsHaveNoEffect := by
  intro i s p htick hinit
  calc exec i (s.setInput p)
      = commit (s.setInput p) (command termDomain i s.block p.ports) := exec_eq_commit i (s.setInput p)
    _ = commit (s.setInput p) (command termDomain i s.block s.input.ports) := by
        rw [command_congr_ports termDomain i s.block htick hinit]
    _ = mapNext (fun t => t.setInput p) (exec i s) := by
        rw [commit_setInput, exec_eq_commit]

end Sys2Proof.Machine
end

section
/-! The waveforms over ℝ (R102 to R111), read through the fraction of a cycle. An angle acts on the triangle, the square and the
sawtooth only through that fraction, which gives their ranges, their period and the continuity of the triangle. -/

namespace Sys2Proof.Machine

/-! The multiplexer. -/

theorem waveOf_eq_silence {c : Code} (h : 3 < c.toNat) : waveOf c = .silence := by
  unfold waveOf
  split
  case h_5 => rfl
  all_goals omega

section Multiplexer

variable (P : Config.Params) (θ : ℝ) {c : Code}

theorem gen_of_sine (h : waveOf c = .sine) : gen (realDomain P) θ c = P.sinImpl θ := by
  rw [gen, h]; rfl
theorem gen_of_triangle (h : waveOf c = .triangle) : gen (realDomain P) θ c = triWave θ := by
  rw [gen, h]; rfl
theorem gen_of_square (h : waveOf c = .square) : gen (realDomain P) θ c = sqrWave θ := by
  rw [gen, h]; rfl
theorem gen_of_sawtooth (h : waveOf c = .sawtooth) : gen (realDomain P) θ c = sawWave θ := by
  rw [gen, h]; rfl
theorem gen_of_silence (h : waveOf c = .silence) : gen (realDomain P) θ c = 0 := by
  rw [gen, h]; exact Rat.cast_zero

end Multiplexer

/-- Settles O38: each code's waveform, then the generator that waveform selects. -/
theorem multiplexerSelectsByCode : Obligations.MultiplexerSelectsByCode := fun P θ =>
  ⟨gen_of_sine P θ rfl, gen_of_triangle P θ rfl, gen_of_square P θ rfl, gen_of_sawtooth P θ rfl,
    fun _ hc => gen_of_silence P θ (waveOf_eq_silence hc)⟩

/-! The reduced angle and its half-cycle. -/

/-- The fraction of a cycle at an angle, the `u` of R111. -/
noncomputable def cycleFraction (θ : ℝ) : ℝ := frac (θ / (2 * Real.pi))

theorem cycleFraction_nonneg (θ : ℝ) : 0 ≤ cycleFraction θ := frac_nonneg _

theorem cycleFraction_lt_one (θ : ℝ) : cycleFraction θ < 1 := frac_lt_one _

theorem cycleFraction_add_two_pi (θ : ℝ) : cycleFraction (θ + 2 * Real.pi) = cycleFraction θ := by
  have hcycle : (θ + 2 * Real.pi) / (2 * Real.pi) = θ / (2 * Real.pi) + 1 := by field_simp
  rw [cycleFraction, hcycle, frac_eq_fract, Int.fract_add_one]
  rfl

theorem reduceAngle_eq_cycleFraction (θ : ℝ) : reduceAngle θ = 2 * Real.pi * cycleFraction θ := reduceAngle_eq θ

theorem reduceAngle_add_cycles (θ : ℝ) : θ = reduceAngle θ + ⌊θ / (2 * Real.pi)⌋ * (2 * Real.pi) := by
  rw [reduceAngle, emod]; ring

/-- Settles O43: the reduced angle is `2π` times a fraction, and the cycles it leaves out are those of the floor. -/
theorem angleReducesIntoOneCycle : Obligations.AngleReducesIntoOneCycle := by
  intro θ
  have hpi : 0 < 2 * Real.pi := Real.two_pi_pos
  refine ⟨?_, ?_, _, reduceAngle_add_cycles θ⟩ <;> rw [reduceAngle_eq_cycleFraction]
  · exact mul_nonneg hpi.le (cycleFraction_nonneg θ)
  · exact mul_lt_of_lt_one_right hpi (cycleFraction_lt_one θ)

theorem halfCycle_eq_floor (θ : ℝ) : halfCycle θ = ⌊2 * cycleFraction θ⌋ := by
  rw [halfCycle, reduceAngle_eq_cycleFraction]
  congr 1; field_simp

theorem quadrant_eq_floor (θ : ℝ) : quadrant θ = ⌊4 * cycleFraction θ⌋ := by
  rw [quadrant, reduceAngle_eq_cycleFraction]
  congr 1; field_simp; ring

theorem halfCycle_eq_ite (θ : ℝ) : halfCycle θ = if cycleFraction θ < 1 / 2 then 0 else 1 := by
  have h0 := cycleFraction_nonneg θ
  have h1 := cycleFraction_lt_one θ
  rw [halfCycle_eq_floor, Int.floor_eq_iff]
  split
  · constructor <;> push_cast <;> linarith
  · constructor <;> push_cast <;> linarith

/-- The half-cycles of the whole angle, less two for every cycle taken out. -/
theorem halfCycle_eq_sub (θ : ℝ) : halfCycle θ = ⌊θ / Real.pi⌋ - 2 * ⌊θ / (2 * Real.pi)⌋ := by
  have hpi := Real.pi_ne_zero
  have hsplit : reduceAngle θ / Real.pi = θ / Real.pi - (2 * ⌊θ / (2 * Real.pi)⌋ : ℤ) := by
    rw [reduceAngle, emod]; push_cast; field_simp
  rw [halfCycle, hsplit, Int.floor_sub_intCast]

/-- Settles O42: the index differs from the floor by an even number and is 0 or 1, so it is the floor's remainder by 2. -/
theorem halfCycleHasTheParityOfTheAngle : Obligations.HalfCycleHasTheParityOfTheAngle := by
  intro θ
  have hindex := halfCycle_eq_ite θ
  have heven := halfCycle_eq_sub θ
  unfold parity
  split at hindex <;> omega

/-! The generators in the fraction of a cycle. -/

theorem sqrWave_eq (θ : ℝ) : sqrWave θ = if cycleFraction θ < 1 / 2 then 1 else -1 := by
  rw [sqrWave, halfCycle_eq_ite]
  split <;> simp

theorem sawWave_eq (θ : ℝ) :
    sawWave θ = if cycleFraction θ < 1 / 2 then 2 * cycleFraction θ else -(2 * cycleFraction θ - 1) := by
  have hposition : (reduceAngle θ - halfCycle θ * Real.pi) / Real.pi = 2 * cycleFraction θ - halfCycle θ := by
    rw [reduceAngle_eq_cycleFraction]; field_simp
  simp only [sawWave, hposition]
  rw [halfCycle_eq_ite]
  split <;> simp

theorem quadrant_le (θ : ℝ) : quadrant θ ≤ 4 * cycleFraction θ := by
  rw [quadrant_eq_floor]; exact Int.floor_le _

theorem lt_quadrant_add_one (θ : ℝ) : 4 * cycleFraction θ < quadrant θ + 1 := by
  rw [quadrant_eq_floor]; exact Int.lt_floor_add_one _

theorem quadrant_cases (θ : ℝ) : quadrant θ = 0 ∨ quadrant θ = 1 ∨ quadrant θ = 2 ∨ quadrant θ = 3 := by
  have h0 : 0 ≤ quadrant θ := by
    rw [quadrant_eq_floor, Int.floor_nonneg]
    linarith [cycleFraction_nonneg θ]
  have h4 : quadrant θ < 4 := by
    rw [quadrant_eq_floor, Int.floor_lt]
    push_cast
    linarith [cycleFraction_lt_one θ]
  omega

theorem triWave_eq (θ : ℝ) :
    triWave θ =
      if quadrant θ = 0 then 4 * cycleFraction θ - quadrant θ
      else if quadrant θ = 1 then 1 - (4 * cycleFraction θ - quadrant θ)
      else if quadrant θ = 2 then -(4 * cycleFraction θ - quadrant θ)
      else 4 * cycleFraction θ - quadrant θ - 1 := by
  have hposition : (reduceAngle θ - quadrant θ * (Real.pi / 2)) / (Real.pi / 2) = 4 * cycleFraction θ - quadrant θ := by
    rw [reduceAngle_eq_cycleFraction]; field_simp; ring
  simp only [triWave, hposition]

/-- Settles O39: the forms of R111, with the floor of `4u` read as the quadrant. -/
theorem waveformsInCycleForm : Obligations.WaveformsInCycleForm := by
  intro θ u
  have hu : cycleFraction θ = u := rfl
  have hfloor : ⌊4 * u⌋ = quadrant θ := (quadrant_eq_floor θ).symm
  have htri := triWave_eq θ
  have hq := quadrant_cases θ
  rw [hfloor]
  refine ⟨sqrWave_eq θ, sawWave_eq θ, fun h => ?_, fun h => ?_, fun h => ?_, fun h => ?_, by omega, by omega⟩ <;>
    simpa [h, hu] using htri

/-- The triangle over one cycle: the line `4u`, bent down at a quarter and up again at three quarters. -/
noncomputable def triangleOfCycle (u : ℝ) : ℝ := 4 * u - |4 * u - 1| + |4 * u - 3| - 2

theorem triWave_eq_triangleOfCycle (θ : ℝ) : triWave θ = triangleOfCycle (cycleFraction θ) := by
  have hlow := quadrant_le θ
  have hhigh := lt_quadrant_add_one θ
  rw [triWave_eq, triangleOfCycle]
  obtain h | h | h | h := quadrant_cases θ <;> norm_num [h] at hlow hhigh ⊢
  · rw [abs_of_nonpos (by linarith), abs_of_nonpos (by linarith)]; ring
  · rw [abs_of_nonneg (by linarith), abs_of_nonpos (by linarith)]; ring
  · rw [abs_of_nonneg (by linarith), abs_of_nonpos (by linarith)]; ring
  · rw [abs_of_nonneg (by linarith), abs_of_nonneg (by linarith)]; ring

theorem continuous_triangleOfCycle : Continuous triangleOfCycle := by
  unfold triangleOfCycle; fun_prop

/-- Settles O44: the bent line is continuous within a cycle and has one value, 0, at both ends of it. -/
theorem triangleIsContinuous : Obligations.TriangleIsContinuous := by
  have hends : triangleOfCycle 0 = triangleOfCycle 1 := by norm_num [triangleOfCycle]
  have hcycles : Continuous (triangleOfCycle ∘ Int.fract) :=
    continuous_triangleOfCycle.continuousOn.comp_fract'' hends
  have hwave : triWave = (triangleOfCycle ∘ Int.fract) ∘ fun θ => θ / (2 * Real.pi) :=
    funext triWave_eq_triangleOfCycle
  rw [Obligations.TriangleIsContinuous, hwave]
  exact hcycles.comp (continuous_id.div_const _)

/-- Settles O41: adding `2π` keeps the fraction of a cycle; the sine's clause is (S2) of R103. -/
theorem waveformsArePeriodic : Obligations.WaveformsArePeriodic := by
  intro P θ
  simp only [triWave_eq_triangleOfCycle, sqrWave_eq, sawWave_eq, cycleFraction_add_two_pi, true_and]
  exact P.sin_periodic θ

/-! Ranges. -/

/-- In every quadrant the triangle is `r`, `1 - r`, `-r` or `r - 1` for a position `r` in [0, 1). -/
theorem abs_triWave_le_one (θ : ℝ) : |triWave θ| ≤ 1 := by
  have hlow := quadrant_le θ
  have hhigh := lt_quadrant_add_one θ
  rw [triWave_eq, abs_le]
  split_ifs <;> constructor <;> linarith

theorem sqrWave_eq_one_or (θ : ℝ) : sqrWave θ = 1 ∨ sqrWave θ = -1 := by
  unfold sqrWave
  exact ite_eq_or_eq _ _ _

theorem abs_sawWave_lt_one (θ : ℝ) : |sawWave θ| < 1 := by
  have h0 := cycleFraction_nonneg θ
  have h1 := cycleFraction_lt_one θ
  rw [sawWave_eq, abs_lt]
  split <;> constructor <;> linarith

theorem abs_gen_le_one (P : Config.Params) (θ : ℝ) (c : Code) : |gen (realDomain P) θ c| ≤ 1 := by
  cases hw : waveOf c with
  | sine => rw [gen_of_sine P θ hw]; exact P.sin_bounded θ
  | triangle => rw [gen_of_triangle P θ hw]; exact abs_triWave_le_one θ
  | square =>
    rw [gen_of_square P θ hw]
    obtain h | h := sqrWave_eq_one_or θ <;> simp [h]
  | sawtooth => rw [gen_of_sawtooth P θ hw]; exact (abs_sawWave_lt_one θ).le
  | silence => rw [gen_of_silence P θ hw]; simp

/-- Settles O40: each generator's range, and for the multiplexer the range of the one selected. -/
theorem waveformsStayInRange : Obligations.WaveformsStayInRange := fun P θ c =>
  ⟨abs_le.1 (abs_triWave_le_one θ), sqrWave_eq_one_or θ, abs_lt.1 (abs_sawWave_lt_one θ), P.sin_bounded θ,
    abs_gen_le_one P θ c⟩

end Sys2Proof.Machine
end

section
/-! What a `TICK` answers (41_modulation.md): its sample, its last outputs and its phases in FM, in PM and in an unknown mode. -/

namespace Sys2Proof.Machine

variable {α : Type}

/-! The answer over terms (R132 to R139). -/

/-- In both known modes the sounding part runs, from the mode's own angle. -/
theorem modulate_sounds (A : NumDomain α) {b : Block α} (m : α) (h : b.mode = 0 ∨ b.mode = 1) :
    ∃ a1, modulate A b m = sound A b (depth A m) a1 := by
  rcases h with h | h
  · exact ⟨_, modulate_fm A b m h⟩
  · exact ⟨_, modulate_pm A b m h⟩

/-- The phases advance from where they stood before the signal chain, which writes none. -/
theorem phases_advancePhases_modulate (A : NumDomain α) (b : Block α) (f m : α) :
    (advancePhases A f (modulate A b m).1).op0.phase = (advancePhase A f b.op0).phase ∧
    (advancePhases A f (modulate A b m).1).op1.phase = (advancePhase A f b.op1).phase := by
  obtain ⟨y0, y1, hlast⟩ := modulate_writes_last A b m
  rw [hlast]
  exact ⟨rfl, rfl⟩

/-- A tick that sounds from the modulator's angle `a1`: its frame, and the values of its two outputs. -/
theorem exec_tick_of_sound {s : State} {f m a1 : NumTerm} (hready : s.block.initDone = true)
    (hf : s.input.ports.f = .finite f) (hm : s.input.ports.m = .finite m)
    (hsound : modulate termDomain s.block m = sound termDomain s.block (depth termDomain m) a1) :
    ∃ y0 y1 p0 p1 : NumTerm,
      exec .tick s = .next { s with
        block := { s.block with
          op0 := { s.block.op0 with phase := p0, last := y0 }
          op1 := { s.block.op1 with phase := p1, last := y1 } }
        response := some y0 } ∧
      ∀ E : Env,
        E.val y1 = E.val s.block.op1.level * (1 / 2 + 1 / 2 * E.val m) *
          gen (realDomain E.params) (E.val a1) s.block.op1.wave ∧
        E.val y0 = E.val s.block.op0.level *
          gen (realDomain E.params) (2 * Real.pi * E.val s.block.op0.phase + E.val y1) s.block.op0.wave := by
  obtain ⟨y1, hy1⟩ : ∃ y1, y1 = modulatorOut termDomain s.block.op1 (depth termDomain m) a1 := ⟨_, rfl⟩
  refine ⟨carrierOut termDomain s.block.op0 (carrierAngle termDomain s.block.op0 y1), y1,
    (advancePhase termDomain f s.block.op0).phase, (advancePhase termDomain f s.block.op1).phase, ?_,
    fun E => ⟨?_, ?_⟩⟩
  · rw [hy1, exec_tick_ready s f m hready hf hm, hsound]
    rfl
  · rw [hy1, Env.val_modulatorOut, Env.val_depth]
  · rw [Env.val_carrierOut, Env.val_carrierAngle]

/-- Settles O26: the two modes sound alike from their two angles. -/
theorem tickInFmOrPmMode : Obligations.TickInFmOrPmMode := by
  intro s f m hready hmode hf hm
  rcases hmode with h0 | h1
  · obtain ⟨y0, y1, p0, p1, hexec, hval⟩ := exec_tick_of_sound hready hf hm (modulate_fm _ _ m h0)
    refine ⟨y0, y1, p0, p1, hexec, fun E => ⟨fun _ => ?_, fun h1 => ?_, (hval E).2⟩⟩
    · rw [(hval E).1, Env.val_fmAngle]
    · exact absurd (h0.symm.trans h1) (by decide)
  · obtain ⟨y0, y1, p0, p1, hexec, hval⟩ := exec_tick_of_sound hready hf hm (modulate_pm _ _ m h1)
    refine ⟨y0, y1, p0, p1, hexec, fun E => ⟨fun h0 => ?_, fun _ => ?_, (hval E).2⟩⟩
    · exact absurd (h0.symm.trans h1) (by decide)
    · rw [(hval E).1, Env.val_pmAngle]

/-- Settles O27: the signal chain leaves the registers, so the phase accumulator's write is the tick's only one. -/
theorem tickInUnknownModeIsSilent : Obligations.TickInUnknownModeIsSilent := by
  intro s f m hready h0 h1 hf hm
  refine ⟨.rat 0, (advancePhase termDomain f s.block.op0).phase, (advancePhase termDomain f s.block.op1).phase, ?_,
    fun E => ⟨Rat.cast_zero, E.val_advancePhase f _, E.val_advancePhase f _⟩⟩
  rw [exec_tick_ready s f m hready hf hm, modulate_unknown _ _ m h0 h1]
  rfl

/-- Settles O28: the phases a tick writes are fractions, advanced from the phases the sample was computed from. -/
theorem tickAdvancesBothPhases : Obligations.TickAdvancesBothPhases := by
  intro s f m hready hf hm
  obtain ⟨hphase0, hphase1⟩ := phases_advancePhases_modulate termDomain s.block f m
  refine ⟨_, exec_tick_ready s f m hready hf hm, fun E => ?_⟩
  rw [hphase0, hphase1]
  exact ⟨E.val_advancePhase f _, E.val_advancePhase f _, frac_phaseInRange _, frac_phaseInRange _⟩

/-! The answer over ℝ, and its range (R142). -/

/-- A tick's answer in values is the reference block's answer. -/
theorem exec_tick_values (E : Env) {s : State} {f m : NumTerm} (hready : s.block.initDone = true)
    (hf : s.input.ports.f = .finite f) (hm : s.input.ports.m = .finite m) :
    ∃ t y, exec .tick s = .next t ∧ t.response = some y ∧
      t.regs E = advancePhases (realDomain E.params) (E.val f) (modulate (realDomain E.params) (s.regs E) (E.val m)).1 ∧
      E.val y = (modulate (realDomain E.params) (s.regs E) (E.val m)).2 := by
  have hread := map_modulate E.interp s.block m
  refine ⟨_, _, exec_tick_ready s f m hready hf hm, rfl, ?_, congrArg Prod.snd hread⟩
  exact congrArg (advancePhases (realDomain E.params) (E.val f)) (congrArg Prod.fst hread)

section Range

variable (P : Config.Params)

theorem real_depth (m : ℝ) : depth (realDomain P) m = 1 / 2 + 1 / 2 * m := by
  norm_num [depth, realDomain, Config.kMod]

/-- The carrier's level is 1, so its output is as large as its generator's. -/
theorem abs_carrierOut_le_one {o : Operator ℝ} (h : o.level = 1) (a0 : ℝ) : |carrierOut (realDomain P) o a0| ≤ 1 := by
  have hout : carrierOut (realDomain P) o a0 = o.level * gen (realDomain P) a0 o.wave := rfl
  rw [hout, h, one_mul]
  exact abs_gen_le_one P a0 o.wave

theorem abs_modulatorOut_le {o : Operator ℝ} (h : 0 ≤ o.level) (d a1 : ℝ) :
    |modulatorOut (realDomain P) o d a1| ≤ o.level * |d| := by
  have hout : modulatorOut (realDomain P) o d a1 = o.level * d * gen (realDomain P) a1 o.wave := rfl
  rw [hout, abs_mul, abs_mul, abs_of_nonneg h]
  exact mul_le_of_le_one_right (by positivity) (abs_gen_le_one P a1 o.wave)

/-- The depth of a modulation input in [-1, 1] is in [0, 1]. -/
theorem abs_depth_le_one {m : ℝ} (h : |m| ≤ 1) : |1 / 2 + 1 / 2 * m| ≤ 1 := by
  rw [abs_le] at h ⊢
  constructor <;> linarith

variable {P}

/-- In every mode the sample of a sound block is within [-1, 1]: the carrier's output, or 0. -/
theorem abs_modulate_snd_le_one {b : Block ℝ} (hb : RegsInv P b) (m : ℝ) :
    |(modulate (realDomain P) b m).2| ≤ 1 := by
  rcases mode_cases b.mode with h | h | ⟨h0, h1⟩
  · rw [modulate_fm _ b m h]; exact abs_carrierOut_le_one P hb.carrier_level _
  · rw [modulate_pm _ b m h]; exact abs_carrierOut_le_one P hb.carrier_level _
  · rw [modulate_unknown _ b m h0 h1]; simp [realDomain]

/-- Only `TICK` responds, and its response is the sample of the signal chain. -/
theorem command_response_abs_le_one {i : Instr} {b b' : Block ℝ} {p : Ports ℝ} {y : ℝ}
    (h : command (realDomain P) i b p = .next (b', some y)) (hb : b.initDone = true → RegsInv P b) : |y| ≤ 1 := by
  obtain rfl := (command_responds_iff h).1 rfl
  obtain ⟨hready, _, m, -, -, hanswer⟩ := (tickCommand_next_iff _ b p _).1 h
  cases hanswer
  exact abs_modulate_snd_le_one (hb hready) m

end Range

/-- Every command on a sound block leaves a response in range. -/
theorem exec_responseInRange {E : Env} {i : Instr} {s t : State} (hs : s.Inv E) (h : exec i s = .next t) :
    t.ResponseInRange E := by
  obtain ⟨b, y, hcommand, rfl⟩ := (exec_next_iff i s t).1 h
  rintro y rfl
  exact command_response_abs_le_one (command_regs E hcommand) hs

/-- Settles O29: the sample is the carrier's output or 0, and a sounding tick's modulator is level times depth times a
generator. -/
theorem tickResponseWithinUnit : Obligations.TickResponseWithinUnit := by
  intro E s f m hready hs hf hm
  obtain ⟨t, y, hexec, hy, hregs, hval⟩ := exec_tick_values E hready hf hm
  refine ⟨t, y, hexec, hy, exec_responseInRange hs hexec y hy, fun h0 h1 => ?_, fun hmode => ?_⟩
  · rw [hval, modulate_unknown _ (s.regs E) _ h0 h1]
    exact Rat.cast_zero
  · obtain ⟨hlevel0, hlevel1⟩ : CoefficientInRange (E.val s.block.op1.level) := (hs hready).level1
    have hmod : |E.val t.block.op1.last| ≤ E.val s.block.op1.level * |1 / 2 + 1 / 2 * E.val m| := by
      obtain ⟨a1, hsound⟩ := modulate_sounds (realDomain E.params) (b := s.regs E) (E.val m) hmode
      have hlast : E.val t.block.op1.last = (t.regs E).op1.last := rfl
      rw [hlast, hregs, hsound, ← real_depth E.params]
      exact abs_modulatorOut_le E.params hlevel0 _ a1
    exact ⟨hmod, fun hm1 => hmod.trans (mul_le_one₀ hlevel1 (abs_nonneg _) (abs_depth_le_one hm1))⟩

/-! FM against PM (R143). -/

/-- The sounding part depends on the modulator's angle only through the modulator's generator. -/
theorem sound_congr_gen (A : NumDomain α) (b : Block α) (d : α) {a a' : α}
    (h : gen A a b.op1.wave = gen A a' b.op1.wave) : sound A b d a = sound A b d a' := by
  have hout : modulatorOut A b.op1 d a = modulatorOut A b.op1 d a' := by rw [modulatorOut, modulatorOut, h]
  rw [sound_eq, sound_eq, hout]

/-- An FM block put in PM mode sounds the same, where the generator does not separate the two angles. -/
theorem modulate_setMode_pm (A : NumDomain α) {b : Block α} (m : α) (hfm : b.mode = 0)
    (h : gen A (fmAngle A b.op1) b.op1.wave = gen A (pmAngle A b.op1) b.op1.wave) :
    modulate A (b.setMode 1) m = ((modulate A b m).1.setMode 1, (modulate A b m).2) := by
  rw [modulate_fm A b m hfm, sound_congr_gen A b _ h, modulate_pm A (b.setMode 1) m rfl]
  rfl

/-- The modulator's angles differ only in the feedback term `x`, which FM takes as a fraction of a cycle and PM as radians. -/
theorem gen_fmAngle_eq_gen_pmAngle (E : Env) (o : Operator NumTerm)
    (h : E.val o.fb * E.val o.last = 0 ∨
      gen (realDomain E.params) (2 * Real.pi * E.val o.phase + 2 * Real.pi * (E.val o.fb * E.val o.last)) o.wave =
        gen (realDomain E.params) (2 * Real.pi * E.val o.phase + E.val o.fb * E.val o.last) o.wave) :
    gen (realDomain E.params) (fmAngle (realDomain E.params) (o.map E.val)) o.wave =
      gen (realDomain E.params) (pmAngle (realDomain E.params) (o.map E.val)) o.wave := by
  have hfm : fmAngle (realDomain E.params) (o.map E.val) = _ := E.val_fmAngle o
  have hpm : pmAngle (realDomain E.params) (o.map E.val) = _ := E.val_pmAngle o
  rw [hfm, hpm, mul_add]
  rcases h with hx | hgen
  · rw [hx, mul_zero]
  · exact hgen

/-- Settles O30: in values the PM tick is the FM tick with the mode replaced. -/
theorem fmAndPmDifferOnlyByFeedback : Obligations.FmAndPmDifferOnlyByFeedback := by
  intro E s f m hready hfm hf hm hangles
  obtain ⟨t, y, hexec, hy, hregs, hval⟩ := exec_tick_values E hready hf hm
  obtain ⟨t', y', hexec', hy', hregs', hval'⟩ :=
    exec_tick_values E (s := { s with block := { s.block with mode := 1 } }) hready hf hm
  have hpm := modulate_setMode_pm (realDomain E.params) (b := s.regs E) (E.val m) hfm
    (gen_fmAngle_eq_gen_pmAngle E s.block.op1 hangles)
  have hmode : State.regs E { s with block := { s.block with mode := 1 } } = (s.regs E).setMode 1 := rfl
  rw [hmode, hpm] at hregs' hval'
  refine ⟨t, t', y, y', hexec, hexec', hy, hy', hval.trans hval'.symm, ?_⟩
  rw [hregs', hregs]
  rfl

end Sys2Proof.Machine
end

section
/-! Runs: what a step keeps or leaves, carried along a run by induction on its length. -/

namespace Sys2Proof.Machine

/-! Taking a step that answers off a run. -/

theorem core_run_succ_of_step {s u : State} (h : step s = .next u) (k : Nat) :
    Sys2Proof.core.run (k + 1) s = Sys2Proof.core.run k u := by
  rw [core_run_succ, h]

theorem core_run_succ_next {k : Nat} {s t : State} (h : Sys2Proof.core.run (k + 1) s = .next t) :
    ∃ u, step s = .next u ∧ Sys2Proof.core.run k u = .next t := by
  rw [core_run_succ] at h
  split at h
  · exact ⟨_, ‹_›, h⟩
  · cases h
  · cases h

/-! The range of every response (R142). -/

/-- A step from a sound state drives no response, or a `TICK`'s. -/
theorem step_responseInRange {E : Env} {s t : State} (hs : s.Inv E) (h : step s = .next t) : t.ResponseInRange E := by
  rcases step_next_cases h with ⟨-, rfl⟩ | ⟨next, rest, -, hexec⟩
  · intro y hy
    cases hy
  · have hpresent : (present s next rest).Inv E := hs
    exact exec_responseInRange hpresent hexec

/-- Settles O47: every step keeps the invariant, from which the last one responds within range. -/
theorem runsRespondWithinUnit : Obligations.RunsRespondWithinUnit := by
  intro E s t k hs hrun
  induction k generalizing s with
  | zero =>
    obtain ⟨u, hstep, hend⟩ := core_run_succ_next hrun
    cases hend
    exact step_responseInRange hs hstep
  | succ k ih =>
    obtain ⟨u, hstep, hrest⟩ := core_run_succ_next hrun
    exact ih u (stepKeepsTheInvariant E s u hs hstep).1 hrest

/-! The phases along a run of ticks (R139, R140). -/

/-- `frac` forgets a fraction taken before. -/
theorem frac_frac_add (x y : ℝ) : frac (frac x + y) = frac (x + y) := by
  simp only [frac_eq_fract, Int.fract_eq_fract]
  exact ⟨-⌊x⌋, by rw [add_sub_add_right_eq_sub, Int.fract_sub_self, Int.cast_neg]⟩

/-- What `n` advances at the base frequency `f` do to an operator's record: they keep the ratio, and the phase has moved by `n`
increments and is wrapped. -/
def PhaseAdvanced (E : Env) (f : NumTerm) (n : ℕ) (o o' : Operator NumTerm) : Prop :=
  o'.ratio = o.ratio ∧ E.val o'.phase = frac (E.val o.phase + n * (E.val f * E.val o.ratio / E.params.sr))

theorem PhaseAdvanced.refl {E : Env} (f : NumTerm) {o : Operator NumTerm} (h : PhaseInRange (E.val o.phase)) :
    PhaseAdvanced E f 0 o o := by
  refine ⟨rfl, ?_⟩
  rw [Nat.cast_zero, zero_mul, add_zero, frac_eq_fract]
  exact (Int.fract_eq_self.2 h).symm

theorem PhaseAdvanced.trans {E : Env} {f : NumTerm} {k n : ℕ} {o o' o'' : Operator NumTerm}
    (h : PhaseAdvanced E f k o o') (h' : PhaseAdvanced E f n o' o'') : PhaseAdvanced E f (k + n) o o'' := by
  obtain ⟨hratio, hphase⟩ := h
  obtain ⟨hratio', hphase'⟩ := h'
  refine ⟨hratio'.trans hratio, ?_⟩
  rw [hphase', hphase, hratio, frac_frac_add]
  push_cast
  congr 1
  ring

theorem PhaseAdvanced.phaseInRange {E : Env} {f : NumTerm} {n : ℕ} {o o' : Operator NumTerm}
    (h : PhaseAdvanced E f n o o') : PhaseInRange (E.val o'.phase) := by
  obtain ⟨-, hphase⟩ := h
  rw [hphase]
  exact frac_phaseInRange _

/-- The step of a presented `TICK` advances both operators once and takes the presentation. -/
theorem step_tickIssue (E : Env) {s : State} {f m : NumTerm} {rest : List (Issue NumTerm)}
    (hready : s.block.initDone = true) (hpending : s.pending = tickIssue (.finite f) (.finite m) :: rest) :
    ∃ t, step s = .next t ∧ t.block.initDone = true ∧ t.pending = rest ∧
      PhaseAdvanced E f 1 s.block.op0 t.block.op0 ∧ PhaseAdvanced E f 1 s.block.op1 t.block.op1 := by
  have hdecode : decode (tickIssue (.finite f) (.finite m)).cmd = .tick := decodeOfEncodeIsTheCommand .tick
  obtain ⟨t, hexec, hphases⟩ :=
    tickAdvancesBothPhases (present s (tickIssue (.finite f) (.finite m)) rest) f m hready rfl rfl
  obtain ⟨hphase0, hphase1, -, -⟩ := hphases E
  obtain ⟨hratio0, -, -⟩ := (exec_regsAfter hexec).carrier_constants nofun
  obtain ⟨-, -, -, -, hratio1, -⟩ := (exec_regsAfter hexec).parameters nofun
  refine ⟨t, ?_, (initDoneIsSetByInitAndKept _ _ t hexec).1, ?_, ⟨hratio0, ?_⟩, ⟨hratio1 nofun, ?_⟩⟩
  · rw [step_command hpending, hdecode, hexec]
  · obtain ⟨b, y, -, rfl⟩ := (exec_next_iff _ _ t).1 hexec
    rfl
  · rw [hphase0, Nat.cast_one, one_mul]
    rfl
  · rw [hphase1, Nat.cast_one, one_mul]
    rfl

/-- A run of presented `TICK`s advances both operators once for each. -/
theorem run_ticks_phaseAdvanced (E : Env) (f : NumTerm) (ms : List NumTerm) (rest : List (Issue NumTerm)) (s : State)
    (hready : s.block.initDone = true) (hrange0 : PhaseInRange (E.val s.block.op0.phase))
    (hrange1 : PhaseInRange (E.val s.block.op1.phase))
    (hpending : s.pending = ms.map (fun m => tickIssue (.finite f) (.finite m)) ++ rest) :
    ∃ t, Sys2Proof.core.run ms.length s = .next t ∧ t.pending = rest ∧
      PhaseAdvanced E f ms.length s.block.op0 t.block.op0 ∧ PhaseAdvanced E f ms.length s.block.op1 t.block.op1 := by
  induction ms generalizing s with
  | nil => exact ⟨s, rfl, hpending, .refl f hrange0, .refl f hrange1⟩
  | cons m ms ih =>
    obtain ⟨u, hstep, hready', hpending', hop0, hop1⟩ := step_tickIssue E hready hpending
    obtain ⟨t, hrun, hrest, hops0, hops1⟩ := ih u hready' hop0.phaseInRange hop1.phaseInRange hpending'
    rw [List.length_cons, core_run_succ_of_step hstep, Nat.add_comm]
    exact ⟨t, hrun, hrest, hop0.trans hops0, hop1.trans hops1⟩

/-- Settles O49: the advances of the run's ticks add up under one wrap. -/
theorem phaseAfterManyTicks : Obligations.PhaseAfterManyTicks := by
  intro E f ms rest s hready hrange0 hrange1 hpending
  obtain ⟨t, hrun, hrest, ⟨-, hphase0⟩, ⟨-, hphase1⟩⟩ :=
    run_ticks_phaseAdvanced E f ms rest s hready hrange0 hrange1 hpending
  exact ⟨t, hrun, hrest, hphase0, hphase1⟩

/-! Determinism (R144, R34). -/

/-- Settles O51: each run, read in ℝ, is the reference block's run from what is read of its state. -/
theorem equalValuesRunAlike : Obligations.EqualValuesRunAlike := by
  intro E s s' k hview
  rw [view_run, view_run, hview]

/-- What is committed replaces the registers and the response, so it keeps of a state only what is presented and pending. -/
theorem commit_congr {s s' : State} (hinput : s.input = s'.input) (hpending : s.pending = s'.pending)
    (r : CmdResult NumTerm) : commit s r = commit s' r := by
  obtain ⟨block, input, response, pending⟩ := s
  cases hinput
  cases hpending
  cases r <;> rfl

/-- A step that executes `INIT` reads no register (R34). -/
theorem step_init_congr {s s' : State} {first : Issue NumTerm} {rest : List (Issue NumTerm)}
    (hinit : decode first.cmd = .init) (hs : s.pending = first :: rest) (hs' : s'.pending = first :: rest) :
    step s = step s' := by
  rw [step_command hs, step_command hs', hinit]
  exact commit_congr rfl rfl (initCommand termDomain first.ports)

/-- Settles O50: the two runs are one from the first step on. -/
theorem runsFromInitAreDetermined : Obligations.RunsFromInitAreDetermined := by
  intro s s' first rest k hinit hs hs'
  rw [core_run_succ, core_run_succ, step_init_congr hinit hs hs']

end Sys2Proof.Machine
end

section
/-! The control commands (42_control.md): what `INIT`, the note commands, the parameter commands and the reserved opcodes answer,
and how the next `TICK` sounds after a code outside its register's list is stored. -/

namespace Sys2Proof.Machine

/-! The answer of a command that only writes registers. -/

section Writing

variable {i : Instr} {s : State} {b : Block NumTerm}

/-- On an initialised block a writing command's answer is the state with the written registers and no response. -/
theorem exec_of_writing (hcommand : command termDomain i s.block s.input.ports = writing s.block b)
    (hready : s.block.initDone = true) : exec i s = .next { s with block := b, response := none } := by
  rw [exec_eq_commit, hcommand, commit_writing s b hready]

theorem exec_preInit_of_writing (hcommand : command termDomain i s.block s.input.ports = writing s.block b)
    (hcold : s.block.initDone = false) : exec i s = .refused .preInit := by
  rw [exec_eq_commit, hcommand, writing, afterInit_preInit _ _ hcold, commit_refused]

end Writing

/-! `INIT` and the note commands. -/

/-- `INIT` reads no register, so it answers initialised or not (R161). -/
theorem exec_init_finite {s : State} {a b : NumTerm} (ha : s.input.ports.s0 = .finite a)
    (hb : s.input.ports.s1 = .finite b) :
    exec .init s = .next { s with block := initBlock termDomain a b, response := none } :=
  (exec_next_iff _ _ _).2
    ⟨initBlock termDomain a b, none, (initCommand_next_iff _ _ _).2 ⟨a, b, ha, hb, rfl⟩, rfl⟩

/-- A seed that is already a phase is not changed by the wrap. -/
theorem frac_eq_self {x : ℝ} (h0 : 0 ≤ x) (h1 : x < 1) : frac x = x := Int.fract_eq_self.2 ⟨h0, h1⟩

/-- Settles O11: the registers are `initBlock`'s, whose phases are the wrapped seeds. -/
theorem initWritesEveryRegister : Obligations.InitWritesEveryRegister := by
  intro s a b ha hb
  exact ⟨.frac a, .frac b, exec_init_finite ha hb, fun E => ⟨rfl, rfl, frac_eq_self, frac_eq_self⟩⟩

/-- Settles O12: the registers written are those that stood there. -/
theorem noteOnChangesNothing : Obligations.NoteOnChangesNothing :=
  fun _ => ⟨exec_of_writing rfl, exec_preInit_of_writing rfl⟩

/-- Settles O13: the value written to both last outputs is 0, and a product with it is 0. -/
theorem noteOffZeroesBothLastOutputs : Obligations.NoteOffZeroesBothLastOutputs := by
  refine fun s => ⟨fun hready => ⟨.rat 0, exec_of_writing rfl hready, fun E => ?_⟩, exec_preInit_of_writing rfl⟩
  have hzero : E.val (.rat 0) = 0 := Rat.cast_zero
  exact ⟨hzero, by rw [hzero, mul_zero]⟩

/-! Parameter codes: a waveform code above 3 and a mode code above 1 are silent. -/

theorem gen_of_code_above_three (P : Config.Params) (θ : ℝ) {c : Code} (h : 3 < c.toNat) :
    gen (realDomain P) θ c = 0 :=
  gen_of_silence P θ (waveOf_eq_silence h)

section SilentTick

variable {s : State} {f m : NumTerm}

/-- In a known mode a carrier without a waveform makes the sample, and with it the carrier's last output, 0. -/
theorem exec_tick_of_silent_carrier (hready : s.block.initDone = true) (hmode : s.block.mode = 0 ∨ s.block.mode = 1)
    (hf : s.input.ports.f = .finite f) (hm : s.input.ports.m = .finite m) (hwave : 3 < s.block.op0.wave.toNat) :
    ∃ u y, exec .tick s = .next u ∧ u.response = some y ∧ ∀ E : Env, E.val y = 0 ∧ E.val u.block.op0.last = 0 := by
  obtain ⟨a1, hsound⟩ := modulate_sounds termDomain m hmode
  obtain ⟨y0, y1, p0, p1, hexec, hval⟩ := exec_tick_of_sound hready hf hm hsound
  refine ⟨_, y0, hexec, rfl, fun E => ?_⟩
  have hy0 : E.val y0 = 0 := by rw [(hval E).2, gen_of_code_above_three E.params _ hwave, mul_zero]
  exact ⟨hy0, hy0⟩

/-- In a known mode a modulator without a waveform puts out 0, so it leaves the carrier's angle as it was. -/
theorem exec_tick_of_silent_modulator (hready : s.block.initDone = true)
    (hmode : s.block.mode = 0 ∨ s.block.mode = 1) (hf : s.input.ports.f = .finite f)
    (hm : s.input.ports.m = .finite m) (hwave : 3 < s.block.op1.wave.toNat) :
    ∃ u y, exec .tick s = .next u ∧ u.response = some y ∧
      ∀ E : Env, E.val u.block.op1.last = 0 ∧
        E.val y = E.val s.block.op0.level *
          gen (realDomain E.params) (2 * Real.pi * E.val s.block.op0.phase) s.block.op0.wave := by
  obtain ⟨a1, hsound⟩ := modulate_sounds termDomain m hmode
  obtain ⟨y0, y1, p0, p1, hexec, hval⟩ := exec_tick_of_sound hready hf hm hsound
  refine ⟨_, y0, hexec, rfl, fun E => ?_⟩
  have hy1 : E.val y1 = 0 := by rw [(hval E).1, gen_of_code_above_three E.params _ hwave, mul_zero]
  exact ⟨hy1, by rw [(hval E).2, hy1, add_zero]⟩

end SilentTick

/-- Settles O14: the code stored is the code the next tick's carrier reads. -/
theorem setWave0StoresTheCarrierCode : Obligations.SetWave0StoresTheCarrierCode :=
  fun _ _ hready => ⟨_, exec_of_writing rfl hready, rfl, fun hv hmode _ _ _ hf hm =>
    exec_tick_of_silent_carrier hready hmode hf hm hv⟩

/-- Settles O15: the code stored is the code the next tick's modulator reads. -/
theorem setWave1StoresTheModulatorCode : Obligations.SetWave1StoresTheModulatorCode :=
  fun _ _ hready => ⟨_, exec_of_writing rfl hready, rfl, fun hv hmode _ _ _ hf hm =>
    exec_tick_of_silent_modulator hready hmode hf hm hv⟩

/-- A mode code above 1 is neither FM nor PM. -/
theorem mode_unknown_of_one_lt {c : Code} (h : 1 < c.toNat) : c ≠ 0 ∧ c ≠ 1 := by
  constructor <;> rintro rfl <;> exact absurd h (by decide)

/-- Settles O17: the mode stored is one in which a tick writes the phases alone. -/
theorem setModeStoresTheModeCode : Obligations.SetModeStoresTheModeCode := by
  intro v s hready
  refine ⟨_, exec_of_writing rfl hready, rfl, fun hv p f m hf hm => ?_⟩
  obtain ⟨h0, h1⟩ := mode_unknown_of_one_lt hv
  obtain ⟨z, p0, p1, hexec, hval⟩ := tickInUnknownModeIsSilent
    { s with block := s.block.setMode v, input := p, response := none } f m hready h0 h1 hf hm
  exact ⟨_, z, hexec, rfl, fun E => (hval E).1, rfl, rfl, rfl⟩

/-! Parameter numbers: the real values of the coefficient, the ratio and the level. -/

section ParameterValues

variable (E : Env) (v : Code)

theorem Env.val_feedbackOf : E.val (feedbackOf termDomain v) = (min v.toNat 100 : ℕ) / 100 := by
  simp [feedbackOf, termDomain, Config.fbMax, Config.fbDiv]

theorem Env.val_levelOf : E.val (levelOf termDomain v) = (v.toNat : ℝ) / 1023 := by
  simp [levelOf, termDomain, Config.levelDiv]

theorem Env.val_ratioRom (j : Fin 64) : E.val (ratioRom termDomain j) = E.params.ratioTable j := rfl

/-- The level's divisor is odd, so no 10-bit value is half of it (R171). -/
theorem Env.val_levelOf_ne_half : E.val (levelOf termDomain v) ≠ 1 / 2 := by
  rw [Env.val_levelOf]
  intro hhalf
  have hreal : (2 : ℝ) * v.toNat = 1023 := by linarith
  have hnat : 2 * v.toNat = 1023 := by exact_mod_cast hreal
  omega

end ParameterValues

theorem ratioIndex_eq_iff (v : Code) (j : Fin 64) : ratioIndex v = j ↔ j.val = min (v.toNat / 8) 63 := by
  have hindex : (ratioIndex v).val = min (v.toNat / 8) 63 := by
    rw [← Nat.shiftRight_eq_div_pow v.toNat 3]; rfl
  rw [Fin.ext_iff, hindex, eq_comm]

/-- Settles O16: the stored coefficient is the clamped quotient. -/
theorem setFeedbackStoresTheClampedCoefficient : Obligations.SetFeedbackStoresTheClampedCoefficient := by
  refine fun v s hready => ⟨feedbackOf termDomain v, exec_of_writing rfl hready, fun E => ?_⟩
  rw [Env.val_feedbackOf]
  constructor
  · intro hv
    rw [min_eq_left hv]
  · intro hv
    rw [min_eq_right hv.le]
    norm_num

/-- Settles O19: the stored ratio is the ROM entry of the index, which is 0, 1 and 63 on the three ranges named. -/
theorem setRatioStoresTheRomEntry : Obligations.SetRatioStoresTheRomEntry := by
  refine fun v s hready => ⟨ratioRom termDomain (ratioIndex v), exec_of_writing rfl hready, fun E => ?_⟩
  have hentry (j : Fin 64) (hj : j.val = min (v.toNat / 8) 63) :
      E.val (ratioRom termDomain (ratioIndex v)) = E.params.ratioTable j := by
    rw [(ratioIndex_eq_iff v j).2 hj, Env.val_ratioRom]
  refine ⟨fun j hj => hentry j (by rw [hj, Nat.shiftRight_eq_div_pow]), fun hv => ?_, fun hlow hhigh => ?_, fun hv => ?_⟩
  · rw [hentry 0 (by simp; omega), E.params.ratio_zero]
  · rw [hentry 1 (by simp; omega), E.params.ratio_one]
  · exact hentry 63 (by simp; omega)

/-- Settles O20: the stored level is a quotient by the largest 10-bit value. -/
theorem setLevelStoresTheLinearLevel : Obligations.SetLevelStoresTheLinearLevel := by
  refine fun v s hready => ⟨levelOf termDomain v, exec_of_writing rfl hready, fun E => ?_⟩
  obtain ⟨hnonneg, hle⟩ : CoefficientInRange (E.val (levelOf termDomain v)) := levelOf_inRange E.params v
  exact ⟨E.val_levelOf v, hnonneg, hle, E.val_levelOf_ne_half v⟩

/-! Commands that change nothing. -/

/-- Settles O18: for every value the registers written are those that stood there. -/
theorem reservedSlotsChangeNothing : Obligations.ReservedSlotsChangeNothing :=
  fun _ _ hready => ⟨exec_of_writing rfl hready, exec_of_writing rfl hready⟩

/-- Under this block's policy a reserved opcode writes the registers that stood there. -/
theorem command_reserved {α : Type} (A : NumDomain α) {i : Instr} (h : i = .rsvOpc5 ∨ i = .rsvOpc6 ∨ i = .rsvOpc7)
    (b : Block α) (p : Ports α) : command A i b p = writing b b := by
  rcases h with rfl | rfl | rfl <;> exact reserved_eq_writing b

/-- Settles O22: a reserved opcode writes nothing under the default policy, and the other policy refuses in every state. -/
theorem reservedOpcodesAreNoOps : Obligations.ReservedOpcodesAreNoOps := by
  intro i s hreserved
  have hcommand := command_reserved termDomain hreserved s.block s.input.ports
  exact ⟨exec_of_writing hcommand, exec_preInit_of_writing hcommand, rfl⟩

end Sys2Proof.Machine
end

section
/-! Refusals and completion (60_exceptions.md): what the block refuses, what elaboration refuses, and that an initialised block
with numbers on its ports never stops (R206, R207). -/

namespace Sys2Proof.Machine

variable {α : Type}

/-! A port without a number (R206). -/

theorem initCommand_nonFinite (A : NumDomain α) {p : Ports α} (h : p.s0 = .nonFinite ∨ p.s1 = .nonFinite) :
    initCommand A p = .refused .nonFinite := by
  obtain ⟨f, m, s0, s1⟩ := p
  rcases h with rfl | rfl
  · rfl
  · cases s0 <;> rfl

theorem tickCommand_nonFinite (A : NumDomain α) {b : Block α} {p : Ports α} (hready : b.initDone = true)
    (h : p.f = .nonFinite ∨ p.m = .nonFinite) : tickCommand A b p = .refused .nonFinite := by
  rw [tickCommand, afterInit_ready _ _ hready]
  obtain ⟨f, m, s0, s1⟩ := p
  rcases h with rfl | rfl
  · rfl
  · cases f <;> rfl

/-- A command that is refused over terms is refused by the machine, which keeps no part of its work. -/
theorem exec_refused {i : Instr} {s : State} {e : Refusal}
    (h : command termDomain i s.block s.input.ports = .refused e) : exec i s = .refused e := by
  rw [exec_eq_commit, h, commit_refused]

/-- Settles O24: each of the two commands refuses over its own pair of ports. -/
theorem nonFiniteOperandsAreRefused : Obligations.NonFiniteOperandsAreRefused :=
  ⟨fun _ hready hport => exec_refused (tickCommand_nonFinite termDomain hready hport),
    fun _ hport => exec_refused (initCommand_nonFinite termDomain hport)⟩

/-! Elaboration (R6, R206). -/

theorem elaborate_of_pos (c : Config.Constants) {x : ℝ} (h : 0 < x) :
    elaborate c (.finite x) = .next { c with sr := x, sr_pos := h } := dif_pos h

theorem elaborate_of_not_pos (c : Config.Constants) {x : ℝ} (h : ¬ 0 < x) :
    elaborate c (.finite x) = .refused .badParam := dif_neg h

theorem elaborate_nonFinite (c : Config.Constants) : elaborate c .nonFinite = .refused .badParam := rfl

theorem elaborate_badParam_iff (c : Config.Constants) (sr : Operand ℝ) :
    elaborate c sr = .refused .badParam ↔ ¬ ∃ x, sr = .finite x ∧ 0 < x := by
  constructor
  · rintro hrefused ⟨x, rfl, hpos⟩
    rw [elaborate_of_pos c hpos] at hrefused
    cases hrefused
  · intro hrate
    cases sr with
    | nonFinite => exact elaborate_nonFinite c
    | finite x => exact elaborate_of_not_pos c fun hpos => hrate ⟨x, rfl, hpos⟩

/-- Settles O25: a positive rate becomes the parameters' rate, and what is left is refused. -/
theorem elaborationTakesPositiveRates : Obligations.ElaborationTakesPositiveRates := by
  refine fun c sr => ⟨elaborate_badParam_iff c sr, ?_⟩
  rintro x rfl hpos
  exact ⟨_, elaborate_of_pos c hpos, rfl, rfl⟩

/-! Completion (R207). -/

theorem Operand.isFinite_iff (x : Operand α) : x.isFinite = true ↔ ∃ a, x = .finite a := by
  cases x <;> simp [Operand.isFinite]

theorem Ports.isFinite_iff (p : Ports α) :
    p.isFinite = true ↔
      (∃ f, p.f = .finite f) ∧ (∃ m, p.m = .finite m) ∧ (∃ s0, p.s0 = .finite s0) ∧ ∃ s1, p.s1 = .finite s1 := by
  simp [Ports.isFinite, Operand.isFinite_iff, and_assoc]

theorem State.pendingFinite_iff (s : State) :
    s.pendingFinite = true ↔ ∀ i ∈ s.pending, i.ports.isFinite = true := List.all_eq_true

/-- In any number domain an initialised block with numbers on its ports answers every command: only `INIT` and `TICK` read ports,
and what the others need is `init_done`. -/
theorem command_answers (A : NumDomain α) (i : Instr) {b : Block α} {p : Ports α} (hready : b.initDone = true)
    (hfinite : p.isFinite = true) : ∃ b' y, command A i b p = .next (b', y) := by
  obtain ⟨⟨f, hf⟩, ⟨m, hm⟩, ⟨s0, hs0⟩, ⟨s1, hs1⟩⟩ := p.isFinite_iff.1 hfinite
  cases i with
  | init => exact ⟨_, _, (initCommand_next_iff A p _).2 ⟨s0, s1, hs0, hs1, rfl⟩⟩
  | tick => exact ⟨_, _, (tickCommand_next_iff A b p _).2 ⟨hready, f, m, hf, hm, rfl⟩⟩
  | _ => exact ⟨_, _, writing_ready b _ hready⟩

/-- A command takes nothing from the host's list. -/
theorem exec_next_pending {i : Instr} {s t : State} (h : exec i s = .next t) : t.pending = s.pending := by
  obtain ⟨b, y, -, rfl⟩ := (exec_next_iff i s t).1 h
  rfl

theorem exec_answers (i : Instr) {s : State} (hready : s.block.initDone = true)
    (hfinite : s.input.ports.isFinite = true) : ∃ t, exec i s = .next t := by
  obtain ⟨b, y, hcommand⟩ := command_answers termDomain i hready hfinite
  exact ⟨_, (exec_next_iff i s _).2 ⟨b, y, hcommand, rfl⟩⟩

/-- A step goes through, leaves the block initialised and takes the next presentation, where there is one. -/
theorem step_answers {s : State} (hready : s.block.initDone = true) (hfinite : s.pendingFinite = true) :
    ∃ t, step s = .next t ∧ t.block.initDone = true ∧ t.pending = s.pending.tail := by
  cases hpending : s.pending with
  | nil => exact ⟨hold s, step_of_pending_nil hpending, hready, hpending⟩
  | cons next rest =>
    have hports : next.ports.isFinite = true := s.pendingFinite_iff.1 hfinite next (by simp [hpending])
    obtain ⟨t, hexec⟩ := exec_answers (decode next.cmd) (s := present s next rest) hready hports
    exact ⟨t, (step_command hpending).trans hexec, (initDoneIsSetByInitAndKept _ _ t hexec).1, exec_next_pending hexec⟩

theorem pendingFinite_of_pending_tail {s t : State} (hfinite : s.pendingFinite = true)
    (htail : t.pending = s.pending.tail) : t.pendingFinite = true := by
  rw [State.pendingFinite_iff, htail]
  exact fun i hi => s.pendingFinite_iff.1 hfinite i (List.mem_of_mem_tail hi)

/-- Settles O48: a step leaves a state that meets the premises again, with one command fewer to come. -/
theorem finiteOperandsNeverStop : Obligations.FiniteOperandsNeverStop := by
  intro s k hready hfinite
  induction k generalizing s with
  | zero => exact ⟨s, rfl, hready, rfl⟩
  | succ k ih =>
    obtain ⟨u, hstep, hready', htail⟩ := step_answers hready hfinite
    obtain ⟨t, hrun, hdone, hrest⟩ := ih u hready' (pendingFinite_of_pending_tail hfinite htail)
    refine ⟨t, (core_run_succ_of_step hstep k).trans hrun, hdone, ?_⟩
    rw [hrest, htail, List.drop_tail]

end Sys2Proof.Machine
end

section
/-! Before the first `INIT` (R224): one gate on `init_done` stands in front of every other command. -/

namespace Sys2Proof.Machine

variable {α : Type}

/-- `TICK` is gated by its definition, and every other command but `INIT` is a gated write. -/
theorem command_eq_afterInit (A : NumDomain α) {i : Instr} (hinit : i ≠ .init) (b : Block α) (p : Ports α) :
    ∃ r, command A i b p = afterInit b r := by
  by_cases htick : i = .tick
  · subst htick
    exact ⟨_, rfl⟩
  · obtain ⟨w, hcommand, -, -⟩ := command_eq_idempotent_write A hinit htick
    exact ⟨.next (w b, none), hcommand b p⟩

/-- In any number domain the gate refuses before it looks at the command's own work. -/
theorem command_preInit (A : NumDomain α) {i : Instr} {b : Block α} (hinit : i ≠ .init) (hcold : b.initDone = false)
    (p : Ports α) : command A i b p = .refused .preInit := by
  obtain ⟨r, hgate⟩ := command_eq_afterInit A hinit b p
  rw [hgate, afterInit_preInit b r hcold]

/-- Settles O23: the machine refuses what the command over terms refuses. -/
theorem commandsBeforeInitAreRefused : Obligations.CommandsBeforeInitAreRefused :=
  fun _ s hinit hcold => exec_refused (command_preInit termDomain hinit hcold s.input.ports)

end Sys2Proof.Machine
end
